-- ==== Sys2Proof/Word.lean ====
section
/-! DEFINITION. The widths the FCC works with (00_scope.md R12, R13). -/

namespace Sys2Proof

/-- A 32-bit register or bus value (00_scope.md R13, `u32`). -/
abbrev Word := BitVec 32

/-- A 16-bit header field (00_scope.md R13, `u16`). -/
abbrev Half := BitVec 16

/-- One byte (00_scope.md R13, `u8`). -/
abbrev Byte := BitVec 8

end Sys2Proof
end

