-- ==== Sys2Proof/Config.lean ====
section
/-! DEFINITION. What one FCC instance fixes (00_scope.md R10) and the free values, which have no body. -/

namespace Sys2Proof

/-- The implementation parameters of 00_scope.md R10 that an operation of the FCC reads: the configuration argument of
a machine. -/
structure Config.Params where
  /-- `IBUF_BYTES`: the size of the input buffer in bytes. -/
  ibufBytes : Nat
  /-- `OBUF_BYTES`: the size of the output buffer in bytes. -/
  obufBytes : Nat
  /-- `P_SYMMETRIC_ESCAPE`: the send-side escape also replaces 0x7D by 7D 01. -/
  symmetricEscape : Bool
  /-- `P_ESCAPE_CHECKSUM`: the checksum byte of a frame is inside the escaped range. -/
  escapeChecksum : Bool
  deriving DecidableEq, Repr

/-- The values this spec's hardware takes (00_scope.md R10, value column). -/
def Config.params : Config.Params :=
  { ibufBytes := 4096, obufBytes := 8224, symmetricEscape := false, escapeChecksum := true }

/-- The constant of the `ID` register (10_state.md R41). -/
def Config.idValue : Word := 0x4A380001#32

/-- `P_BASE` (00_scope.md R10): OPEN, the platform's choice. -/
opaque Config.pBase : Nat

/-- UNVERIFIED free value (log entry 4): the byte that draw number `d` gives for cell `a` of a buffer, where the
spec says the byte is unspecified (20_memory.md R63, R72; 70_reset_and_hazards.md R196). -/
opaque Config.unspecByte : (d a : Nat) → Byte

/-- UNVERIFIED free value (log entry 4): the word that draw number `d` gives where the spec says a register value is
unspecified (70_reset_and_hazards.md R195, R196; 20_memory.md R64). -/
opaque Config.unspecWord : (d : Nat) → Word

end Sys2Proof
end

