-- ==== Sys2Proof/Syntax.lean ====
section
/-! DEFINITION. The commands of FCC-CMD v1 (30_encoding.md R82), the register names (10_state.md R22), the accesses of
the host port (20_memory.md R60) and the host program syntax (30_encoding.md R92, R93). -/

namespace Sys2Proof

/-- The seven commands of 30_encoding.md R82. A command word carries no operand (R87). -/
inductive Instr where
  | pack
  | buildHeader
  | checksum
  | escape
  | unescape
  | encodeWithBody
  | encodeHeaderOnly
  deriving DecidableEq, Repr

/-- The 21 control and status registers of 10_state.md R22. `endIdx` is `END`. -/
inductive Reg where
  | cmd | status | ctrl | bodyLen | encType | subpkg | rsvd | msgType | bodyProps | flowId | phoneHi | phoneLo
  | inLen | start | endIdx | result | outLen | id | cfg | ibufSize | obufSize
  deriving DecidableEq, Repr

/-- The four kinds of host access (20_memory.md R60). An address is a byte offset from `P_BASE`. -/
inductive PortAccess where
  | read32 (a : Nat)
  | write32 (a : Nat) (v : Word)
  | read8 (a : Nat)
  | write8 (a : Nat) (b : Byte)
  deriving DecidableEq, Repr

/-- One thing the outside world does to the FCC: a port access, the `wait` loop of 30_encoding.md R93 (read STATUS
until DONE = 1), or the reset input (70_reset_and_hazards.md R190). -/
inductive HostOp where
  | access (a : PortAccess)
  | waitDone
  | reset
  deriving DecidableEq, Repr

/-- The two agents (10_state.md R20). -/
inductive Agent where
  | host
  | core
  deriving DecidableEq, Repr

/-- The statements of a host program: the base statements of 30_encoding.md R92 and the pseudo-statements of R93. -/
inductive HostStmt where
  | wr (r : Reg) (v : Word)
  | rd (r : Reg)
  | wrb (i : Nat) (b : Byte)
  | rdbObuf (i : Nat)
  | rdbIbuf (i : Nat)
  | ldb (i : Nat) (bs : List Byte)
  | command (c : Instr)
  | wait
  | rdout (n : Nat)
  deriving DecidableEq, Repr

end Sys2Proof
end

