-- ==== Sys2Proof/Machine/State.lean ====
section
/-! DEFINITION. The state of one FCC instance (10_state.md R53), as plain data, and the state after reset. -/

namespace Sys2Proof.Machine

/-- A byte buffer of 10_state.md R46 or R47: the written cells, addresses strictly rising. A cell that is not listed is
"unwritten". -/
abbrev Memory := List Host.Cell

/-- The fields of `STATUS` (10_state.md R25, R45). -/
structure Status where
  busy : Bool
  done : Bool
  ovf : Bool
  err : BitVec 4
  deriving DecidableEq, Repr

/-- An event of the event output (10_state.md R50). -/
inductive Event where
  | diagOvf (v : Word)
  deriving DecidableEq, Repr

/-- The set of model faults recorded so far (10_state.md R52, 60_exceptions.md R180): one membership flag a reason. -/
structure FaultSet where
  busFault : Bool
  uninitRead : Bool
  hostHazard : Bool
  deriving DecidableEq, Repr

/-- What the port answers to one access (20_memory.md R60; a bus error response, R64, carries the unspecified value of a
read). -/
inductive Reply where
  | written
  | word (v : Word)
  | byte (b : Byte)
  | busErrorWrite
  | busErrorWord (v : Word)
  | busErrorByte (b : Byte)
  deriving DecidableEq, Repr

/-- Why a step stops. -/
inductive Fault where
  /-- Raised by every step but a reset after a busy-write hazard (70_reset_and_hazards.md R195): the spec defines no
  further result (60_exceptions.md R183; log entry 5). Safe. -/
  | hostHazard
  deriving DecidableEq, Repr

/-- Why an instruction has no meaning. -/
inductive Refusal where
  /-- An arm of `exec` without a meaning; no arm of this model raises it. Safe. -/
  | notModelled (mnemonic : String)
  deriving DecidableEq, Repr

/-- The state of one FCC instance (10_state.md R53). A register field holds exactly the bits that 10_state.md R22 lists as
implemented (log entry 11). The last five fields are the model's own (log entries 1, 4, 5 and 10). The first is no state of
the FCC but its configuration: every step and every command takes the parameters from it and none writes it (log entry
9). -/
structure State where
  /-- The parameters this instance is built with (00_scope.md R10). -/
  params : Config.Params
  cmd : Word
  status : Status
  /-- `CTRL.OVF_POLICY`. -/
  ctrl : BitVec 1
  bodyLen : Word
  encType : Word
  subpkg : BitVec 1
  rsvd : Word
  msgType : Half
  bodyProps : Half
  flowId : Half
  phoneHi : Word
  phoneLo : Half
  inLen : Word
  start : Word
  /-- `END`. -/
  endIdx : Word
  result : BitVec 24
  outLen : Word
  ibuf : Memory
  obuf : Memory
  /-- The event output, oldest first. -/
  events : List Event
  faults : FaultSet
  /-- A busy-write hazard has happened and no reset since. -/
  hazarded : Bool
  /-- How many unspecified values have been drawn. -/
  draws : Nat
  /-- What the port has answered, oldest first. -/
  replies : List Reply
  /-- The host's accesses, waits and resets still to come, next first. -/
  host : List HostOp
  /-- Which agent moves at each of the next steps. -/
  turns : List Agent
  deriving DecidableEq, Repr

/-- Right after power-on reset (10_state.md R22, 70_reset_and_hazards.md R190), of an instance with this spec's
parameter values (00_scope.md R10): every register at its reset value, every buffer cell unwritten. No event, no model
fault and no reply yet, nothing pending at the port: DESIGN CHOICE (log entries 1, 4, 5 and 10). -/
def State.reset : State :=
  { params := Config.params,
    cmd := 0, status := { busy := false, done := false, ovf := false, err := 0 }, ctrl := 0, bodyLen := 0, encType := 0,
    subpkg := 0, rsvd := 0, msgType := 0, bodyProps := 0, flowId := 0, phoneHi := 0, phoneLo := 0, inLen := 0,
    start := 0, endIdx := 0, result := 0, outLen := 0, ibuf := [], obuf := [], events := [],
    faults := { busFault := false, uninitRead := false, hostHazard := false },
    hazarded := false, draws := 0, replies := [], host := [], turns := [] }

end Sys2Proof.Machine
end

