-- ==== Sys2Proof/Machine/Ops.lean ====
section
/-! DEFINITION. The shared operations over the buffers and the registers: cell reads and writes, acceptance, completion,
errors, events, model faults and reset. -/

namespace Sys2Proof.Machine

/-! ### Byte buffers (00_scope.md R15; 10_state.md R46, R47) -/

/-- The canonical form of a buffer: addresses strictly rising (so none is listed twice). -/
abbrev Memory.wf (m : Memory) : Prop := m.Pairwise (fun x y => x.1 < y.1)

/-- Every listed cell lies below `n`. -/
abbrev Memory.below (m : Memory) (n : Nat) : Prop := ∀ c ∈ m, c.1 < n

/-- The cell at address `a`: a byte, or `none` for "unwritten". -/
def Memory.read (m : Memory) (a : Nat) : Option Byte := List.lookup a m

/-- The cells of the byte sequence `s` placed from address `a`. -/
def Memory.cells : Nat → List Byte → Memory
  | _, [] => []
  | a, b :: s => (a, b) :: Memory.cells (a + 1) s

/-- `MemWrite(space, a, len(s), s)` (00_scope.md R15): exactly the cells `[a, a + len(s))` are replaced. -/
def Memory.write (m : Memory) (a : Nat) (s : List Byte) : Memory :=
  m.filter (fun c => c.1 < a) ++ (Memory.cells a s ++ m.filter (fun c => a + s.length ≤ c.1))

/-- `MemRead(space, a, n)` (00_scope.md R15), cell by cell: `none` where a cell is unwritten. -/
def Memory.range (m : Memory) (a n : Nat) : List (Option Byte) := (List.range' a n).map m.read

/-! ### One field at a time -/

/-- `x[STATUS] <- st`, all four fields. -/
def State.setStatus (st : Status) (s : State) : State := { s with status := st }

/-- `x[CMD] <- w`. -/
def State.setCmd (w : Word) (s : State) : State := { s with cmd := w }

/-- `x[RESULT] <- v`. -/
def State.setResult (v : BitVec 24) (s : State) : State := { s with result := v }

/-- `MemWrite(OBUF, 0, len(out), out)` and `x[OUT_LEN] <- len(out)` (10_state.md R37, R47). -/
def State.setOutput (out : List Byte) (s : State) : State :=
  { s with obuf := s.obuf.write 0 out, outLen := BitVec.ofNat 32 out.length }

/-- `IBUF[i] <- b` (20_memory.md R63). -/
def State.setIbuf (i : Nat) (b : Byte) (s : State) : State := { s with ibuf := s.ibuf.write i [b] }

/-- `emit e` (00_scope.md R15): the event output is append-only (10_state.md R50). -/
def State.emit (e : Event) (s : State) : State := { s with events := s.events ++ [e] }

/-- Records the model fault `BUS_FAULT` (60_exceptions.md R181). -/
def State.recordBusFault (s : State) : State := { s with faults := { s.faults with busFault := true } }

/-- Records the model fault `UNINIT_READ` (60_exceptions.md R182). -/
def State.recordUninitRead (s : State) : State := { s with faults := { s.faults with uninitRead := true } }

/-- Records the model fault `HOST_HAZARD` (60_exceptions.md R183) and marks the run as undefined until reset (log entry
5). -/
def State.recordHostHazard (s : State) : State :=
  { s with faults := { s.faults with hostHazard := true }, hazarded := true }

/-- One unspecified value has been drawn (log entry 4). -/
def State.draw (s : State) : State := { s with draws := s.draws + 1 }

/-- The port answers an access (20_memory.md R60). -/
def State.reply (r : Reply) (s : State) : State := { s with replies := s.replies ++ [r] }

/-- The host's list of what is still to come. -/
def State.setHost (h : List HostOp) (s : State) : State := { s with host := h }

/-- The schedule of the next steps. -/
def State.setTurns (t : List Agent) (s : State) : State := { s with turns := t }

/-! ### The command life cycle (30_encoding.md R84, R86) -/

/-- Acceptance of the command word `w` (30_encoding.md R84). It is also the return from an error: it clears `ERR` and
`OVF` (60_exceptions.md R176). -/
def accept (w : Word) (s : State) : State :=
  (s.setCmd w).setStatus { busy := true, done := false, ovf := false, err := 0 }

/-- `Complete(e, f)` (30_encoding.md R86). -/
def complete (e : BitVec 4) (f : Bool) (s : State) : State :=
  s.setStatus { busy := false, done := true, ovf := f, err := e }

/-! ### Errors (60_exceptions.md R170, R171): the FCC's form of taking an exception -/

/-- The errors a command can raise (60_exceptions.md R171). -/
inductive CmdError where
  | range
  | illegalCmd
  | lenOverflow
  deriving DecidableEq, Repr

/-- `code(E)`, the value of `STATUS.ERR` (60_exceptions.md R171, 10_state.md R26). -/
def errorCode : CmdError → BitVec 4
  | .range => 1
  | .illegalCmd => 2
  | .lenOverflow => 3

/-- The `STATUS.OVF` an error completes with (60_exceptions.md R170). -/
def errorOvf : CmdError → Bool
  | .range => false
  | .illegalCmd => false
  | .lenOverflow => true

/-- `raise E()` (60_exceptions.md R170): the command ends at once, with its code and none of its outputs (R175). No state
is saved and no control is transferred (R176). -/
def raise (e : CmdError) (s : State) : State := complete (errorCode e) (errorOvf e) s

/-! ### What the core reads from IBUF (20_memory.md R71, R72) -/

/-- The bytes a command gets from `IBUF[a : a + n)`; an unwritten cell gives an unspecified byte (20_memory.md R72). -/
def State.ibufBytes (s : State) (a n : Nat) : List Byte :=
  (List.range' a n).map fun i => (s.ibuf.read i).getD (Config.unspecByte s.draws i)

/-- Whether a cell of `IBUF[a : a + n)` is unwritten. -/
def State.ibufUnwritten (s : State) (a n : Nat) : Bool := (s.ibuf.range a n).any Option.isNone

/-- The state after a command has read `IBUF[a : a + n)`: reading an unwritten cell records `UNINIT_READ`
(60_exceptions.md R182) and draws a free value. -/
def State.afterIbufRead (s : State) (a n : Nat) : State :=
  if s.ibufUnwritten a n then s.recordUninitRead.draw else s

/-! ### Reset (70_reset_and_hazards.md R190) -/

/-- The reset step: every register and every buffer as in `State.reset`; events already emitted and model faults stay
(10_state.md R50, R52), and so does the configuration (R53). What has been answered, what is still to come from outside
and the draw counter are no state of the FCC and stay too (log entry 10). -/
def resetStep (s : State) : State :=
  { State.reset with
    params := s.params, events := s.events, faults := s.faults, draws := s.draws, replies := s.replies, host := s.host,
    turns := s.turns }

end Sys2Proof.Machine
end

