-- ==== Sys2Proof/Machine/Flags.lean ====
section
/-! DEFINITION. The flags (10_state.md R25, R45): the STATUS word and the overflow condition. -/

namespace Sys2Proof.Machine

/-- The word a host reads from `STATUS` (10_state.md R25): ERR in bits 7:4, OVF, DONE and BUSY in bits 2, 1 and 0, zero
elsewhere. -/
def Status.word (st : Status) : Word :=
  0#24 ++ (st.err ++ (0#1 ++ (BitVec.ofBool st.ovf ++ (BitVec.ofBool st.done ++ BitVec.ofBool st.busy))))

/-- `Overflow(bl) = (sint(bl) >= 1024)` (40_pack.md R103). -/
def overflow (bl : Word) : Bool := 1024 ≤ bl.toInt

/-- `x[CTRL].OVF_POLICY = 1` (10_state.md R27). -/
def State.refusing (s : State) : Bool := s.ctrl == 1#1

/-- The diagnostic of a body length `v` (40_pack.md R103): one `DIAG_OVF(v)` event when the length overflowed. -/
def diagnose (ovf : Bool) (v : Word) (s : State) : State := if ovf then s.emit (.diagOvf v) else s

end Sys2Proof.Machine
end

