-- ==== Sys2Proof/Machine/Operands.lean ====
section
/-! DEFINITION. Operand assembly (30_encoding.md R87): byte slices, byte order, the phone bytes and the range check. -/

namespace Sys2Proof.Machine

/-- The delimiter byte (00_scope.md R17). -/
def delim : Byte := 0x7E#8

/-- The stuffing-marker byte (00_scope.md R17). -/
def mark : Byte := 0x7D#8

/-- `s[a:b]`, the half-open slice (00_scope.md R14). -/
def slice (s : List Byte) (a b : Nat) : List Byte := (s.take b).drop a

/-- The two bytes of a 16-bit field, most significant first (20_memory.md R65). -/
def be16 (v : Half) : List Byte := [v.extractLsb' 8 8, v.extractLsb' 0 8]

/-- The 6-byte phone identifier, in wire order (10_state.md R33). -/
def State.phone (s : State) : Vector Byte 6 :=
  #v[s.phoneHi.extractLsb' 24 8, s.phoneHi.extractLsb' 16 8, s.phoneHi.extractLsb' 8 8, s.phoneHi.extractLsb' 0 8,
     s.phoneLo.extractLsb' 8 8, s.phoneLo.extractLsb' 0 8]

/-- `n = uint(x[IN_LEN])` (10_state.md R34). -/
def State.inCount (s : State) : Nat := s.inLen.toNat

/-- `start = sint(x[START])` (10_state.md R35). -/
def State.startInt (s : State) : Int := s.start.toInt

/-- `end = sint(x[END])` (10_state.md R35). -/
def State.endInt (s : State) : Int := s.endIdx.toInt

/-- `CheckRange(n, start, end)` (60_exceptions.md R172), its four tests in their order, on mathematical integers. -/
def checkRange (p : Config.Params) (n : Nat) (st en : Int) : Option CmdError :=
  if n > p.ibufBytes then some .range
  else if st < 0 then some .range
  else if en > n then some .range
  else if st > en then some .range
  else none

/-- The range check of CHECKSUM, ESCAPE and UNESCAPE on the operand registers (60_exceptions.md R172). -/
def State.rangeError (s : State) : Option CmdError :=
  checkRange s.params s.inCount s.startInt s.endInt

/-- `start` as an index, once the range check has passed. -/
def State.startIdx (s : State) : Nat := s.startInt.toNat

/-- `end` as an index, once the range check has passed. -/
def State.stopIdx (s : State) : Nat := s.endInt.toNat

end Sys2Proof.Machine
end

