-- ==== Sys2Proof/Machine/Checksum.lean ====
section
/-! DEFINITION. The XOR checksum generator and CHECKSUM (42_checksum.md). -/

namespace Sys2Proof.Machine

/-- `Checksum` (42_checksum.md R120): the XOR of the bytes. -/
def checksum (s : List Byte) : Byte := s.foldl (fun c b => c ^^^ b) 0

/-- What CHECKSUM leaves (42_checksum.md R121): only `IBUF[start : end)` is read. -/
def runChecksum (s : State) : State :=
  match s.rangeError with
  | some e => raise e s
  | none =>
    let n := s.stopIdx - s.startIdx
    complete 0 false
      ((s.afterIbufRead s.startIdx n).setResult ((checksum (s.ibufBytes s.startIdx n)).setWidth 24))

/-- CHECKSUM (42_checksum.md R121). -/
def execChecksum (s : State) : Host.Outcome State Fault Refusal := .next (runChecksum s)

end Sys2Proof.Machine
end

