-- ==== Sys2Proof/Machine/Escape.lean ====
section
/-! DEFINITION. The byte-stuffing codec, ESCAPE and UNESCAPE (43_escape.md). -/

namespace Sys2Proof.Machine

/-- `EscByte` (43_escape.md R130), the send-side byte table. -/
def escByte (p : Config.Params) (b : Byte) : List Byte :=
  if b = delim then [mark, 0x02#8]
  else if b = mark ∧ p.symmetricEscape then [mark, 0x01#8]
  else [b]

/-- `EscRange` (43_escape.md R132). -/
def escRange (p : Config.Params) (r : List Byte) : List Byte := r.flatMap (escByte p)

/-- `Escape` (43_escape.md R132, R147): bytes outside `[st, en)` are copied. -/
def escape (p : Config.Params) (buf : List Byte) (st en : Nat) : List Byte :=
  buf.take st ++ (escRange p (slice buf st en) ++ buf.drop en)

/-- `UnescRange` (43_escape.md R139, R141): left to right, pairs consumed without overlap. -/
def unescRange : List Byte → List Byte
  | [] => []
  | [b] => [b]
  | b :: c :: t =>
    if b = mark ∧ c = 0x01#8 then mark :: unescRange t
    else if b = mark ∧ c = 0x02#8 then delim :: unescRange t
    else b :: unescRange (c :: t)

/-- `Unescape` (43_escape.md R141, R142, R147). -/
def unescape (buf : List Byte) (st en : Nat) : List Byte :=
  buf.take st ++ (unescRange (slice buf st en) ++ buf.drop en)

/-- What ESCAPE and UNESCAPE share (43_escape.md R131, R140, R147, R148): the range check, the whole of `IBUF[0 : n)` read
(20_memory.md R71), the transform's output written. -/
def runTransform (f : List Byte → Nat → Nat → List Byte) (s : State) : State :=
  match s.rangeError with
  | some e => raise e s
  | none =>
    complete 0 false
      (((s.afterIbufRead 0 s.inCount).setOutput (f (s.ibufBytes 0 s.inCount) s.startIdx s.stopIdx)).setResult 0)

/-- ESCAPE (43_escape.md R131), with the table that `P_SYMMETRIC_ESCAPE` selects (R130). -/
def execEscape (s : State) : Host.Outcome State Fault Refusal :=
  .next (runTransform (escape s.params) s)

/-- UNESCAPE (43_escape.md R140). -/
def execUnescape (s : State) : Host.Outcome State Fault Refusal :=
  .next (runTransform unescape s)

end Sys2Proof.Machine
end

