-- ==== Sys2Proof/Machine/Header.lean ====
section
/-! DEFINITION. The fixed-header serializer and BUILD_HEADER (41_header.md). -/

namespace Sys2Proof.Machine

/-- `BuildHeader` (41_header.md R110, R113): 12 bytes, no operand checked (R112, R114). -/
def buildHeader (phone : Vector Byte 6) (mt bp fid : Half) : List Byte :=
  be16 mt ++ (be16 bp ++ (phone.toList ++ be16 fid))

/-- BUILD_HEADER (41_header.md R111). -/
def execBuildHeader (s : State) : Host.Outcome State Fault Refusal :=
  .next (complete 0 false ((s.setOutput (buildHeader s.phone s.msgType s.bodyProps s.flowId)).setResult 0))

end Sys2Proof.Machine
end

