-- ==== Sys2Proof/Machine/Pack.lean ====
section
/-! DEFINITION. The bitfield packer and PACK (40_pack.md). -/

namespace Sys2Proof.Machine

/-- `PackValue` (40_pack.md R100, R102): bodyLength in bits 9:0, encryptionType in 12:10, subPackage in 13, reserved in
15:14. -/
def packValue (bl et : Word) (sp : BitVec 1) (rs : Word) : Half :=
  ((bl.extractLsb' 0 10).setWidth 16)
    ||| ((et.extractLsb' 0 3).setWidth 16 <<< 10)
    ||| (sp.setWidth 16 <<< 13)
    ||| ((rs.extractLsb' 0 2).setWidth 16 <<< 14)

/-- PACK (40_pack.md R101, R103, R104). -/
def execPack (s : State) : Host.Outcome State Fault Refusal :=
  let ovf := overflow s.bodyLen
  if ovf && s.refusing then .next (raise .lenOverflow s)
  else
    .next (complete 0 ovf
      ((diagnose ovf s.bodyLen s).setResult ((packValue s.bodyLen s.encType s.subpkg s.rsvd).setWidth 24)))

end Sys2Proof.Machine
end

