-- ==== Sys2Proof/Machine/Frame.lean ====
section
/-! DEFINITION. The frame delimiter wrapper, ENCODE_WITH_BODY and ENCODE_HEADER_ONLY (44_frame.md). -/

namespace Sys2Proof.Machine

/-- The properties of a frame whose body has `n` bytes: `PackValue(n, 0, 0, 0)` (44_frame.md R151). -/
def frameProps (n : Nat) : Half := packValue (BitVec.ofNat 32 n) 0 0 0

/-- `Header ∥ Body`, the payload of a frame (44_frame.md R151). -/
def framePayload (body : List Byte) (fid : Half) (phone : Vector Byte 6) (mt : Half) : List Byte :=
  buildHeader phone mt (frameProps body.length) fid ++ body

/-- `EncodeFrame` (44_frame.md R150, R151; 90_conflicts.md C1 and C2). -/
def encodeFrame (p : Config.Params) (body : List Byte) (fid : Half) (phone : Vector Byte 6) (mt : Half) : List Byte :=
  let payload := framePayload body fid phone mt
  let cs := checksum payload
  if p.escapeChecksum then delim :: (escRange p (payload ++ [cs]) ++ [delim])
  else delim :: (escRange p payload ++ [cs, delim])

/-- `RESULT` of an ENCODE command (10_state.md R36): the properties in bits 15:0, the checksum in bits 23:16. -/
def frameResult (body : List Byte) (fid : Half) (phone : Vector Byte 6) (mt : Half) : BitVec 24 :=
  checksum (framePayload body fid phone mt) ++ frameProps body.length

/-- The effect the two ENCODE commands share: the frame of `body` written, `RESULT` and the completion (44_frame.md R152,
R156). -/
def finishFrame (body : List Byte) (ovf : Bool) (s : State) : State :=
  complete 0 ovf
    ((s.setOutput (encodeFrame s.params body s.flowId s.phone s.msgType)).setResult
      (frameResult body s.flowId s.phone s.msgType))

/-- What ENCODE_WITH_BODY leaves (44_frame.md R152, R157): RANGE before LEN_OVERFLOW (60_exceptions.md R174),
both before any read. -/
def runEncodeWithBody (s : State) : State :=
  let n := s.inCount
  let ovf : Bool := 1024 ≤ n
  if n > s.params.ibufBytes then raise .range s
  else if ovf && s.refusing then raise .lenOverflow s
  else finishFrame (s.ibufBytes 0 n) ovf (diagnose ovf (BitVec.ofNat 32 n) (s.afterIbufRead 0 n))

/-- ENCODE_WITH_BODY (44_frame.md R152). -/
def execEncodeWithBody (s : State) : Host.Outcome State Fault Refusal := .next (runEncodeWithBody s)

/-- ENCODE_HEADER_ONLY (44_frame.md R156): the frame of an empty body. -/
def execEncodeHeaderOnly (s : State) : Host.Outcome State Fault Refusal := .next (finishFrame [] false s)

end Sys2Proof.Machine
end

