-- ==== Sys2Proof/Machine/Dispatch.lean ====
section
/-! DEFINITION. The meaning of every command (30_encoding.md R85), one arm a constructor. -/

namespace Sys2Proof.Machine

def exec (i : Instr) (s : State) : Host.Outcome State Fault Refusal :=
  match i with
  | .pack => Sys2Proof.Machine.execPack s
  | .buildHeader => Sys2Proof.Machine.execBuildHeader s
  | .checksum => Sys2Proof.Machine.execChecksum s
  | .escape => Sys2Proof.Machine.execEscape s
  | .unescape => Sys2Proof.Machine.execUnescape s
  | .encodeWithBody => Sys2Proof.Machine.execEncodeWithBody s
  | .encodeHeaderOnly => Sys2Proof.Machine.execEncodeHeaderOnly s

end Sys2Proof.Machine
end

