-- ==== Sys2Proof/WellFormed.lean ====
section
/-! DEFINITION. Which instructions, parameters and host statements the spec admits. -/

namespace Sys2Proof

/-- Every command is well formed: it has no operand to check (30_encoding.md R87). -/
def Instr.wf (_ : Instr) : Bool := true

/-- A legal command word (30_encoding.md R81): `Z` is zero and `OP` is one of the opcodes 0x1 to 0x7. -/
def legalWord (w : Word) : Bool := w.extractLsb' 4 28 == 0#28 && 1#4 ≤ w.extractLsb' 0 4 && w.extractLsb' 0 4 ≤ 7#4

/-- The constraints on the parameters (00_scope.md R11). -/
def Config.Params.wf (p : Config.Params) : Bool :=
  1 ≤ p.ibufBytes && p.ibufBytes ≤ 32754 && 2 * p.ibufBytes + 28 ≤ p.obufBytes && p.obufBytes ≤ 65536

/-- A host statement the syntax admits: `ldb` lists at least one byte (30_encoding.md R93). -/
def HostStmt.wf : HostStmt → Bool
  | .ldb _ bs => !bs.isEmpty
  | .wr _ _ | .rd _ | .wrb _ _ | .rdbObuf _ | .rdbIbuf _ | .command _ | .wait | .rdout _ => true

end Sys2Proof
end

