-- ==== Sys2Proof/Decode.lean ====
section
/-! DEFINITION. Decoding a 32-bit command word, total and rejecting by name, and encoding (30_encoding.md R80 to R83). -/

namespace Sys2Proof

/-- Why a command word is illegal (30_encoding.md R83). -/
inductive Illegal where
  /-- `Z`, bits 31:4, is not zero. -/
  | nonzeroZ
  /-- `OP` is 0x0 or 0x8 to 0xF. -/
  | noSuchOp
  deriving DecidableEq, Repr

/-- What the decoder answers for a command word. -/
inductive Decoded where
  | instr (i : Instr)
  | illegal (why : Illegal)
  deriving DecidableEq, Repr

/-- The `OP` field, bits 3:0 (30_encoding.md R81). -/
def opField (w : Word) : BitVec 4 := w.extractLsb' 0 4

/-- The `Z` field, bits 31:4 (30_encoding.md R81). -/
def zField (w : Word) : BitVec 28 := w.extractLsb' 4 28

/-- The opcode map (30_encoding.md R82); `none` for the illegal opcodes of R83. -/
def decodeOp (op : BitVec 4) : Option Instr :=
  match op.toNat with
  | 0x1 => some .pack
  | 0x2 => some .buildHeader
  | 0x3 => some .checksum
  | 0x4 => some .escape
  | 0x5 => some .unescape
  | 0x6 => some .encodeWithBody
  | 0x7 => some .encodeHeaderOnly
  | _ => none

/-- Decoding of a whole command word, with no reference to any earlier command (30_encoding.md R80, R83). -/
def decode (w : Word) : Decoded :=
  if zField w = 0#28 then
    match decodeOp (opField w) with
    | some i => .instr i
    | none => .illegal .noSuchOp
  else .illegal .nonzeroZ

/-- The opcode of a command (30_encoding.md R82). -/
def opcode : Instr → BitVec 4
  | .pack => 0x1#4
  | .buildHeader => 0x2#4
  | .checksum => 0x3#4
  | .escape => 0x4#4
  | .unescape => 0x5#4
  | .encodeWithBody => 0x6#4
  | .encodeHeaderOnly => 0x7#4

/-- The command word of a command: its opcode in bits 3:0, zeros in bits 31:4 (30_encoding.md R81, R82). -/
def encode (i : Instr) : Word := 0#28 ++ opcode i

/-- The instruction the decoder reads from the number `w` of `nbits` bits. A command word is one 32-bit value
(30_encoding.md R80, 20_memory.md R60), so a number with a bit above bit 31 is no command word. -/
def decodeTableWord (nbits w : Nat) : Option Instr :=
  if nbits ≤ 32 ∧ w < 2 ^ 32 then
    match decode (BitVec.ofNat 32 w) with
    | .instr i => some i
    | .illegal _ => none
  else none

end Sys2Proof
end

