-- ==== Sys2Proof/Machine/Port.lean ====
section
/-! DEFINITION. The host port (20_memory.md R60 to R64), the hazards at it (70_reset_and_hazards.md R195, R196), the host's
turn and the host program syntax (30_encoding.md R92, R93). -/

namespace Sys2Proof.Machine

/-! ### The CSR window (20_memory.md R62) -/

/-- The 21 registers, in the order of 10_state.md R22. -/
def allRegs : List Reg :=
  [.cmd, .status, .ctrl, .bodyLen, .encType, .subpkg, .rsvd, .msgType, .bodyProps, .flowId, .phoneHi, .phoneLo, .inLen,
   .start, .endIdx, .result, .outLen, .id, .cfg, .ibufSize, .obufSize]

/-- The byte offset of a register in the CSR window (10_state.md R22). -/
def regOffset : Reg → Nat
  | .cmd => 0x00
  | .status => 0x04
  | .ctrl => 0x08
  | .bodyLen => 0x0C
  | .encType => 0x10
  | .subpkg => 0x14
  | .rsvd => 0x18
  | .msgType => 0x1C
  | .bodyProps => 0x20
  | .flowId => 0x24
  | .phoneHi => 0x28
  | .phoneLo => 0x2C
  | .inLen => 0x30
  | .start => 0x34
  | .endIdx => 0x38
  | .result => 0x3C
  | .outLen => 0x40
  | .id => 0x44
  | .cfg => 0x48
  | .ibufSize => 0x4C
  | .obufSize => 0x50

/-- The register at offset `a`; `none` for a misaligned or unmapped offset, or one outside the CSR window
(20_memory.md R61, R64). -/
def regAt (a : Nat) : Option Reg := allRegs.find? (fun r => regOffset r == a)

/-- Whether the host may write a register (10_state.md R22, "host access" column): RW, otherwise RO. -/
def regWritable : Reg → Bool
  | .cmd | .ctrl | .bodyLen | .encType | .subpkg | .rsvd | .msgType | .bodyProps | .flowId | .phoneHi | .phoneLo
  | .inLen | .start | .endIdx => true
  | .status | .result | .outLen | .id | .cfg | .ibufSize | .obufSize => false

/-- Whether a read of the register during BUSY = 1 is unspecified (10_state.md R38, 70_reset_and_hazards.md R196). -/
def regBusyUnspecified : Reg → Bool
  | .result | .outLen => true
  | .cmd | .status | .ctrl | .bodyLen | .encType | .subpkg | .rsvd | .msgType | .bodyProps | .flowId | .phoneHi
  | .phoneLo | .inLen | .start | .endIdx | .id | .cfg | .ibufSize | .obufSize => false

/-- The word of `CFG` (10_state.md R43). -/
def cfgWord (p : Config.Params) : Word :=
  0#30 ++ (BitVec.ofBool p.escapeChecksum ++ BitVec.ofBool p.symmetricEscape)

/-- `x[NAME]`, the current value of a register; unimplemented bits read 0 (10_state.md R22, R23, R41, R43, R44). -/
def readReg (s : State) : Reg → Word
  | .cmd => s.cmd
  | .status => s.status.word
  | .ctrl => s.ctrl.setWidth 32
  | .bodyLen => s.bodyLen
  | .encType => s.encType
  | .subpkg => s.subpkg.setWidth 32
  | .rsvd => s.rsvd
  | .msgType => s.msgType.setWidth 32
  | .bodyProps => s.bodyProps.setWidth 32
  | .flowId => s.flowId.setWidth 32
  | .phoneHi => s.phoneHi
  | .phoneLo => s.phoneLo.setWidth 32
  | .inLen => s.inLen
  | .start => s.start
  | .endIdx => s.endIdx
  | .result => s.result.setWidth 32
  | .outLen => s.outLen
  | .id => Config.idValue
  | .cfg => cfgWord s.params
  | .ibufSize => BitVec.ofNat 32 s.params.ibufBytes
  | .obufSize => BitVec.ofNat 32 s.params.obufBytes

/-- `x[NAME] <- v` by the host: the implemented bits of a RW register take `v`'s, an RO register ignores the write
(10_state.md R23). For `CMD` this is the stored value alone; acceptance is `accept`. -/
def storeReg (r : Reg) (v : Word) (s : State) : State :=
  match r with
  | .cmd => s.setCmd v
  | .ctrl => { s with ctrl := v.setWidth 1 }
  | .bodyLen => { s with bodyLen := v }
  | .encType => { s with encType := v }
  | .subpkg => { s with subpkg := v.setWidth 1 }
  | .rsvd => { s with rsvd := v }
  | .msgType => { s with msgType := v.setWidth 16 }
  | .bodyProps => { s with bodyProps := v.setWidth 16 }
  | .flowId => { s with flowId := v.setWidth 16 }
  | .phoneHi => { s with phoneHi := v }
  | .phoneLo => { s with phoneLo := v.setWidth 16 }
  | .inLen => { s with inLen := v }
  | .start => { s with start := v }
  | .endIdx => { s with endIdx := v }
  | .status | .result | .outLen | .id | .cfg | .ibufSize | .obufSize => s

/-! ### The buffer windows (20_memory.md R61, R63) -/

/-- The cell of IBUF at offset `a` of the local map, if `a` lies in its window. -/
def ibufIndex (p : Config.Params) (a : Nat) : Option Nat :=
  if 0x10000 ≤ a ∧ a < 0x10000 + p.ibufBytes then some (a - 0x10000) else none

/-- The cell of OBUF at offset `a` of the local map, if `a` lies in its window. -/
def obufIndex (p : Config.Params) (a : Nat) : Option Nat :=
  if 0x20000 ≤ a ∧ a < 0x20000 + p.obufBytes then some (a - 0x20000) else none

/-- The local offset of a platform address: the FCC occupies 192 KiB from `P_BASE` (20_memory.md R61). -/
def localOffset (addr : Nat) : Option Nat :=
  if Config.pBase ≤ addr ∧ addr < Config.pBase + 0x30000 then some (addr - Config.pBase) else none

/-! ### The four accesses -/

/-- `Read32(a)` (20_memory.md R62, R64; 70_reset_and_hazards.md R196). -/
def read32 (a : Nat) (s : State) : State :=
  match regAt a with
  | some r =>
    if s.status.busy && regBusyUnspecified r then s.draw.reply (.word (Config.unspecWord s.draws))
    else s.reply (.word (readReg s r))
  | none => s.recordBusFault.draw.reply (.busErrorWord (Config.unspecWord s.draws))

/-- A write of register `r` (20_memory.md R62): ignored by an RO register, a hazard while busy (70_reset_and_hazards.md
R195; the register is then left with a free value, log entry 5), an acceptance for `CMD` (30_encoding.md R84). -/
def writeReg (r : Reg) (v : Word) (s : State) : State :=
  if regWritable r then
    if s.status.busy then (storeReg r (Config.unspecWord s.draws) s.draw).recordHostHazard
    else if r = .cmd then accept v s
    else storeReg r v s
  else s

/-- `Write32(a, v)` (20_memory.md R62, R64). -/
def write32 (a : Nat) (v : Word) (s : State) : State :=
  match regAt a with
  | some r => (writeReg r v s).reply .written
  | none => s.recordBusFault.reply .busErrorWrite

/-- The answer to a read of a buffer cell: its byte, or a free value where it is unwritten (20_memory.md R63). -/
def replyCell (cell : Option Byte) (i : Nat) (s : State) : State :=
  match cell with
  | some b => s.reply (.byte b)
  | none => s.draw.reply (.byte (Config.unspecByte s.draws i))

/-- `Read8(a)` (20_memory.md R63, R64): an OBUF cell read while busy is unspecified (70_reset_and_hazards.md R196). -/
def read8 (a : Nat) (s : State) : State :=
  match ibufIndex s.params a, obufIndex s.params a with
  | some i, _ => replyCell (s.ibuf.read i) i s
  | none, some i => replyCell (if s.status.busy then none else s.obuf.read i) i s
  | none, none => s.recordBusFault.draw.reply (.busErrorByte (Config.unspecByte s.draws a))

/-- A write of IBUF cell `i` (20_memory.md R63), a hazard while busy (70_reset_and_hazards.md R195, log entry 5). -/
def writeIbuf (i : Nat) (b : Byte) (s : State) : State :=
  if s.status.busy then (s.draw.setIbuf i (Config.unspecByte s.draws i)).recordHostHazard else s.setIbuf i b

/-- `Write8(a, b)` (20_memory.md R63, R64): writes to OBUF are ignored. -/
def write8 (a : Nat) (b : Byte) (s : State) : State :=
  match ibufIndex s.params a, obufIndex s.params a with
  | some i, _ => (writeIbuf i b s).reply .written
  | none, some _ => s.reply .written
  | none, none => s.recordBusFault.reply .busErrorWrite

/-- One access at the port (20_memory.md R60). -/
def portAccess (x : PortAccess) (s : State) : State :=
  match x with
  | .read32 a => read32 a s
  | .write32 a v => write32 a v s
  | .read8 a => read8 a s
  | .write8 a b => write8 a b s

/-! ### The host's turn -/

/-- The next thing that comes from outside: an access, one read of the `wait` loop (30_encoding.md R93: it is repeated
while the DONE it reads is 0), or reset. With nothing to come, nothing happens. -/
def hostTurn (s : State) : State :=
  match s.host with
  | [] => s
  | .access x :: rest => portAccess x (s.setHost rest)
  | .waitDone :: rest => read32 (regOffset .status) (if s.status.done then s.setHost rest else s)
  | .reset :: rest => resetStep (s.setHost rest)

/-- Which agent moves next: the schedule's first entry; past its end the core moves while a command is in flight
(30_encoding.md R85: the core's step is always eventually taken), otherwise the host (log entry 1). -/
def nextAgent (s : State) : Agent :=
  match s.turns with
  | a :: _ => a
  | [] => if s.status.busy then .core else .host

/-- The state with its schedule advanced by one step. -/
def takeTurn (s : State) : State := s.setTurns s.turns.tail

/-- What a step does after a busy-write hazard: only reset is defined (60_exceptions.md R183, log entry 5). -/
def stepAfterHazard (s : State) : Host.Outcome State Fault Refusal :=
  match s.host with
  | .reset :: rest => .next (resetStep (s.setHost rest))
  | _ => .fault .hostHazard

/-! ### Host programs (30_encoding.md R92, R93) -/

/-- The accesses of a statement. -/
def expandStmt : HostStmt → List HostOp
  | .wr r v => [.access (.write32 (regOffset r) v)]
  | .rd r => [.access (.read32 (regOffset r))]
  | .wrb i b => [.access (.write8 (0x10000 + i) b)]
  | .rdbObuf i => [.access (.read8 (0x20000 + i))]
  | .rdbIbuf i => [.access (.read8 (0x10000 + i))]
  | .ldb i bs => bs.mapIdx fun k b => .access (.write8 (0x10000 + i + k) b)
  | .command c => [.access (.write32 (regOffset .cmd) (encode c))]
  | .wait => [.waitDone]
  | .rdout n => (List.range n).map fun k => .access (.read8 (0x20000 + k))

/-- The accesses of a program. -/
def expandProgram (prog : List HostStmt) : List HostOp := prog.flatMap expandStmt

end Sys2Proof.Machine
end

