-- ==== Sys2Proof/Machine/Turn.lean ====
section
/-! DEFINITION. The core's turn (30_encoding.md R85). -/

namespace Sys2Proof.Machine

/-- The core's step (30_encoding.md R85): while BUSY = 1 it decodes `x[CMD]` and runs the command; an illegal word
completes with ILLEGAL_CMD (60_exceptions.md R173). With BUSY = 0 the core is idle (60_exceptions.md R188). -/
def coreTurn (s : State) : Host.Outcome State Fault Refusal :=
  if s.status.busy then
    match decode s.cmd with
    | .instr i => exec i s
    | .illegal _ => .next (raise .illegalCmd s)
  else .next s

end Sys2Proof.Machine
end

