-- ==== Sys2Proof/Machine/Step.lean ====
section
/-! DEFINITION. One step of the FCC: the core's (30_encoding.md R85) or the host's (20_memory.md R60), as the schedule
says. -/

namespace Sys2Proof.Machine

/-- One step of the FCC. -/
def step (s : State) : Host.Outcome State Fault Refusal :=
  if s.hazarded then stepAfterHazard (takeTurn s)
  else
    match nextAgent s with
    | .core => coreTurn (takeTurn s)
    | .host => .next (hostTurn (takeTurn s))

/-- The state in which the command word `w` has just been accepted (30_encoding.md R84) and the core moves next: the FCC
fetches nothing, the word of a command is the data of a CMD write (10_state.md R21; log entry 3). -/
def State.withFetchWord (s : State) (_nbits w : Nat) : State :=
  { accept (BitVec.ofNat 32 w) s with hazarded := false, turns := .core :: s.turns }

end Sys2Proof.Machine
end

