-- ==== Sys2Proof/Safety.lean ====
section
/-! DEFINITION. The terms claims are stated in: a run without model faults, the invariant of the machine, what IBUF holds,
what a command writes, and the spec's own predicates on accesses and byte ranges. -/

namespace Sys2Proof.Machine

/-- No model fault is recorded (60_exceptions.md R180): the premise of a claim about a host program. -/
def State.Faultless (s : State) : Prop :=
  s.faults = { busFault := false, uninitRead := false, hostHazard := false }

/-- What every reachable state satisfies: parameters that 00_scope.md R11 admits, canonical buffers of the
right size, STATUS as 10_state.md R25 and R26 and 60_exceptions.md R170 allow it, `OUT_LEN` counting written cells of OBUF
(10_state.md R37), and an undefined run only after a recorded hazard on a busy FCC. The last clause is about
the model's own field (log entry 5). -/
structure State.Inv (s : State) : Prop where
  paramsWf : s.params.wf = true
  ibufWf : s.ibuf.wf
  ibufBelow : s.ibuf.below s.params.ibufBytes
  obufWf : s.obuf.wf
  obufBelow : s.obuf.below s.params.obufBytes
  notBusyAndDone : ¬(s.status.busy = true ∧ s.status.done = true)
  errLegal : s.status.err.toNat ≤ 3
  clearUntilDone : s.status.done = false → s.status.err = 0 ∧ s.status.ovf = false
  ovfOnLenOverflow : s.status.err = 3 → s.status.ovf = true
  noOvfOnOtherError : s.status.err = 1 ∨ s.status.err = 2 → s.status.ovf = false
  outLenBound : s.outLen.toNat ≤ s.params.obufBytes
  outputWritten : ∀ a, a < s.outLen.toNat → (s.obuf.read a).isSome
  hazardRecorded : s.hazarded = true → s.faults.hostHazard = true ∧ s.status.busy = true

/-- `IBUF[a : a + len(bs))` is written and holds `bs`. -/
def State.Holds (s : State) (a : Nat) (bs : List Byte) : Prop :=
  ∀ i, i < bs.length → s.ibuf.read (a + i) = bs[i]?

/-- Every cell of OBUF reads, in `t`, as `out` inside `[0, len(out))` and as in `s` outside (10_state.md R47). -/
def OutputIs (s t : State) (out : List Byte) : Prop :=
  ∀ a, t.obuf.read a = if a < out.length then out[a]? else s.obuf.read a

/-- The operands pass `CheckRange` (60_exceptions.md R172) as the indices `st` and `en` of a buffer of `n` bytes. -/
def State.RangeIs (s : State) (n st en : Nat) : Prop :=
  s.inLen.toNat = n ∧ s.start.toInt = st ∧ s.endIdx.toInt = en ∧ st ≤ en ∧ en ≤ n ∧ n ≤ s.params.ibufBytes

/-- A test of `CheckRange` fails (60_exceptions.md R172). -/
def State.RangeFails (s : State) : Prop :=
  s.params.ibufBytes < s.inLen.toNat ∨ s.start.toInt < 0 ∨ (s.inLen.toNat : Int) < s.endIdx.toInt ∨
    s.endIdx.toInt < s.start.toInt

/-- The access is a bus error (20_memory.md R61, R64). -/
def BusError (p : Config.Params) : PortAccess → Prop
  | .read32 a | .write32 a _ => ¬(a % 4 = 0 ∧ a ≤ 0x50)
  | .read8 a | .write8 a _ =>
    ¬(0x10000 ≤ a ∧ a < 0x10000 + p.ibufBytes) ∧ ¬(0x20000 ≤ a ∧ a < 0x20000 + p.obufBytes)

/-- The access only reads. -/
def IsReadAccess : PortAccess → Prop
  | .read32 _ | .read8 _ => True
  | .write32 _ _ | .write8 _ _ => False

/-! ### The register map of 10_state.md R22, transcribed row by row and without the model's own tables -/

/-- The offsets of the RW registers. -/
def rwOffsets : List Nat := [0x00, 0x08, 0x0C, 0x10, 0x14, 0x18, 0x1C, 0x20, 0x24, 0x28, 0x2C, 0x30, 0x34, 0x38]

/-- The offsets of the RO registers. -/
def roOffsets : List Nat := [0x04, 0x3C, 0x40, 0x44, 0x48, 0x4C, 0x50]

/-- What a read answers at each offset but those of RESULT and OUT_LEN, at any time. -/
def readTable (s : State) : List (Nat × Word) :=
  [(0x00, s.cmd), (0x04, s.status.word), (0x08, s.ctrl.setWidth 32), (0x0C, s.bodyLen), (0x10, s.encType),
   (0x14, s.subpkg.setWidth 32), (0x18, s.rsvd), (0x1C, s.msgType.setWidth 32), (0x20, s.bodyProps.setWidth 32),
   (0x24, s.flowId.setWidth 32), (0x28, s.phoneHi), (0x2C, s.phoneLo.setWidth 32), (0x30, s.inLen), (0x34, s.start),
   (0x38, s.endIdx), (0x44, 0x4A380001#32), (0x48, cfgWord s.params), (0x4C, BitVec.ofNat 32 s.params.ibufBytes),
   (0x50, BitVec.ofNat 32 s.params.obufBytes)]

/-- What a read of RESULT and of OUT_LEN answers while BUSY = 0. -/
def outputTable (s : State) : List (Nat × Word) := [(0x3C, s.result.setWidth 32), (0x40, s.outLen)]

/-- What an idle write of `v` leaves at each RW offset but that of CMD. -/
def writeTable (s : State) (v : Word) : List (Nat × State) :=
  [(0x08, { s with ctrl := v.setWidth 1 }), (0x0C, { s with bodyLen := v }), (0x10, { s with encType := v }),
   (0x14, { s with subpkg := v.setWidth 1 }), (0x18, { s with rsvd := v }), (0x1C, { s with msgType := v.setWidth 16 }),
   (0x20, { s with bodyProps := v.setWidth 16 }), (0x24, { s with flowId := v.setWidth 16 }),
   (0x28, { s with phoneHi := v }), (0x2C, { s with phoneLo := v.setWidth 16 }), (0x30, { s with inLen := v }),
   (0x34, { s with start := v }), (0x38, { s with endIdx := v })]

/-! ### What the host may do while a command is in flight, and which cells a command reads -/

/-- Something the host may do at any time, whatever the command in flight: a read, a write that 70_reset_and_hazards.md
R195 does not call a hazard (of an RO register, of OBUF, or a bus error), or a `wait`. -/
def IsQuiet (p : Config.Params) : HostOp → Prop
  | .access (.read32 _) | .access (.read8 _) | .waitDone => True
  | .access (.write32 a _) => a ∉ rwOffsets
  | .access (.write8 a _) => ¬(0x10000 ≤ a ∧ a < 0x10000 + p.ibufBytes)
  | .reset => False

/-- The command reads IBUF cell `a` (20_memory.md R71): a command whose checks fail reads none. -/
def State.ReadsCell (s : State) (i : Instr) (a : Nat) : Prop :=
  match i with
  | .pack | .buildHeader | .encodeHeaderOnly => False
  | .checksum => ¬s.RangeFails ∧ s.start.toInt ≤ a ∧ a < s.endIdx.toInt
  | .escape | .unescape => ¬s.RangeFails ∧ a < s.inLen.toNat
  | .encodeWithBody =>
    s.inLen.toNat ≤ s.params.ibufBytes ∧ (s.inLen.toNat < 1024 ∨ s.ctrl = 0) ∧ a < s.inLen.toNat

/-- The host moves next, and its next access, wait or reset is `op`. -/
def HostNext (s : State) (op : HostOp) (rest : List HostOp) : Prop :=
  s.hazarded = false ∧ nextAgent s = .host ∧ s.host = op :: rest

/-- The core moves next and a command is in flight. -/
def CoreNext (s : State) : Prop := s.hazarded = false ∧ nextAgent s = .core ∧ s.status.busy = true

/-- The state with the host's next entry and the schedule's next entry taken. -/
def taken (s : State) (rest : List HostOp) : State := { s with host := rest, turns := s.turns.tail }

/-- `s` with the completion of a command: BUSY 0, DONE 1 (30_encoding.md R86). -/
def completed (s : State) (err : BitVec 4) (ovf : Bool) : State :=
  { s with status := { busy := false, done := true, ovf := ovf, err := err } }

/-- The implemented bits of a register (10_state.md R22, "bits implemented" column), as a mask. -/
def implementedBits : Reg → Word
  | .status => 0x000000F7#32
  | .ctrl | .subpkg => 0x00000001#32
  | .msgType | .bodyProps | .flowId | .phoneLo => 0x0000FFFF#32
  | .result => 0x00FFFFFF#32
  | .cfg => 0x00000003#32
  | .cmd | .bodyLen | .encType | .rsvd | .phoneHi | .inLen | .start | .endIdx | .outLen | .id | .ibufSize | .obufSize =>
    0xFFFFFFFF#32

/-- The bytes hold a `0x7D` immediately followed by `0x01` or `0x02` (43_escape.md R146). -/
def HasPair (r : List Byte) : Prop := ∃ u v c, r = u ++ 0x7D#8 :: c :: v ∧ (c = 0x01#8 ∨ c = 0x02#8)

/-- The number of pairs `UnescRange` consumes, scanning left to right (43_escape.md R144). -/
def pairsConsumed : List Byte → Nat
  | [] => 0
  | [_] => 0
  | b :: c :: t =>
    if b = 0x7D#8 ∧ (c = 0x01#8 ∨ c = 0x02#8) then pairsConsumed t + 1 else pairsConsumed (c :: t)

/-- The number of extra bytes `EscRange` emits for `r` (43_escape.md R135): `D`, and `M` under `P_SYMMETRIC_ESCAPE`. -/
def escapeGrowth (p : Config.Params) (r : List Byte) : Nat :=
  r.count 0x7E#8 + if p.symmetricEscape then r.count 0x7D#8 else 0

end Sys2Proof.Machine
end

