-- ==== Sys2Proof/Certificates/Slice0/Obligations.lean ====
section
/-! DEFINITION. The statements for the provers. Each docstring names the rule it formalises. -/

open Sys2Proof Sys2Proof.Machine

/-! ## Encoding -/

/-- 30_encoding.md R80, R82: a word decodes to a command exactly when it is that command's word. -/
def Obligations.WordDecodesExactlyToItsCommand : Prop :=
  ∀ (i : Instr) (w : Word), i.wf = true → (decode w = .instr i ↔ w = encode i)

/-- 30_encoding.md R81: the decoder takes exactly the words with `Z = 0` and `OP` among 0x1 to 0x7. -/
def Obligations.DecoderTakesExactlyLegalWords : Prop :=
  ∀ w : Word,
    ((∃ i, decode w = .instr i) ↔ (w.toNat / 16 = 0 ∧ 1 ≤ w.toNat % 16 ∧ w.toNat % 16 ≤ 7)) ∧
    (legalWord w = true ↔ (w.toNat / 16 = 0 ∧ 1 ≤ w.toNat % 16 ∧ w.toNat % 16 ≤ 7))

/-- 30_encoding.md R82: the seven command words and the nine illegal opcodes; 95_test_vectors.md D4 to D6: illegal words with
a nonzero `Z`. -/
def Obligations.SevenCommandWords : Prop :=
  decode 0x00000001#32 = .instr .pack ∧ decode 0x00000002#32 = .instr .buildHeader ∧
  decode 0x00000003#32 = .instr .checksum ∧ decode 0x00000004#32 = .instr .escape ∧
  decode 0x00000005#32 = .instr .unescape ∧ decode 0x00000006#32 = .instr .encodeWithBody ∧
  decode 0x00000007#32 = .instr .encodeHeaderOnly ∧
  decode 0x00000000#32 = .illegal .noSuchOp ∧
  decode 0x00000008#32 = .illegal .noSuchOp ∧ decode 0x00000009#32 = .illegal .noSuchOp ∧
  decode 0x0000000A#32 = .illegal .noSuchOp ∧ decode 0x0000000B#32 = .illegal .noSuchOp ∧
  decode 0x0000000C#32 = .illegal .noSuchOp ∧ decode 0x0000000D#32 = .illegal .noSuchOp ∧
  decode 0x0000000E#32 = .illegal .noSuchOp ∧ decode 0x0000000F#32 = .illegal .noSuchOp ∧
  decode 0x00000011#32 = .illegal .nonzeroZ ∧
  decode 0x80000001#32 = .illegal .nonzeroZ ∧ decode 0xFFFFFFFF#32 = .illegal .nonzeroZ

/-! ## The step and the life cycle -/

/-- 30_encoding.md R85: while BUSY = 1 the core's step runs the command `x[CMD]` decodes to; around it the step only takes
its entry off the schedule (log entry 1). -/
def Obligations.CoreStepRunsDecodedCommand : Prop :=
  ∀ (s : State) (i : Instr), CoreNext s → decode s.cmd = .instr i →
    step s = exec i { s with turns := s.turns.tail }

/-- The model's `withFetchWord` (log entry 3): the very next step runs the command of the word. -/
def Obligations.FetchedWordRunsNext : Prop :=
  ∀ (s : State) (nbits w : Nat) (i : Instr), nbits ≤ 32 → w < 2 ^ 32 → decodeTableWord nbits w = some i →
    step (s.withFetchWord nbits w) =
      exec i { s with cmd := BitVec.ofNat 32 w, status := { busy := true, done := false, ovf := false, err := 0 },
                      hazarded := false }

/-- 30_encoding.md R86, 60_exceptions.md R188: the FCC is idle while BUSY = 0. That an idle step is a step of the model is
its choice (log entry 2). -/
def Obligations.IdleStepsOnlyAdvanceSchedule : Prop :=
  ∀ s : State, s.hazarded = false →
    (nextAgent s = .core → s.status.busy = false → step s = .next { s with turns := s.turns.tail }) ∧
    (nextAgent s = .host → s.host = [] → step s = .next { s with turns := s.turns.tail })

/-- 30_encoding.md R84: an accepted CMD write. While BUSY = 1 the write is not accepted and is recorded as the hazard of
70_reset_and_hazards.md R195; that STATUS then stays as it is is the model's choice (log entry 5), since the spec gives such
a write no defined effect. -/
def Obligations.CmdWriteAcceptedWhenIdle : Prop :=
  ∀ (s : State) (w : Word) (rest : List HostOp), HostNext s (.access (.write32 0x00 w)) rest →
    (s.status.busy = false →
      step s = .next { taken s rest with
        cmd := w, status := { busy := true, done := false, ovf := false, err := 0 },
        replies := s.replies ++ [.written] }) ∧
    (s.status.busy = true → ∃ t, step s = .next t ∧ t.status = s.status ∧ t.faults.hostHazard = true)

/-- 60_exceptions.md R173: an illegal word completes with ILLEGAL_CMD before any command runs. -/
def Obligations.IllegalWordCompletesWithErr2 : Prop :=
  ∀ s : State, CoreNext s →
    (s.cmd.toNat / 16 ≠ 0 ∨ s.cmd.toNat % 16 = 0 ∨ 8 ≤ s.cmd.toNat % 16) →
    step s = .next (completed { s with turns := s.turns.tail } 2 false)

/-- 30_encoding.md R85, R86: every command answers a next state in which it has completed. -/
def Obligations.EveryCommandCompletes : Prop :=
  ∀ (i : Instr) (s : State), ∃ t, exec i s = .next t ∧ t.status.busy = false ∧ t.status.done = true ∧
    (t.status.err = 0 ∨ t.status.err = 1 ∨ t.status.err = 3)

/-- The frame of every command (10_state.md R22 "written by core", R46; 20_memory.md R71): no host-written register, no
parameter, no IBUF cell, nothing at the port, and no model fault but UNINIT_READ. -/
def Obligations.CommandsLeaveOperandsUnchanged : Prop :=
  ∀ (i : Instr) (s t : State), exec i s = .next t →
    t.cmd = s.cmd ∧ t.ctrl = s.ctrl ∧ t.bodyLen = s.bodyLen ∧ t.encType = s.encType ∧ t.subpkg = s.subpkg ∧
    t.rsvd = s.rsvd ∧ t.msgType = s.msgType ∧ t.bodyProps = s.bodyProps ∧ t.flowId = s.flowId ∧
    t.phoneHi = s.phoneHi ∧ t.phoneLo = s.phoneLo ∧ t.inLen = s.inLen ∧ t.start = s.start ∧ t.endIdx = s.endIdx ∧
    t.ibuf = s.ibuf ∧ (∀ a, t.ibuf.read a = s.ibuf.read a) ∧
    t.params = s.params ∧ t.hazarded = s.hazarded ∧ t.replies = s.replies ∧ t.host = s.host ∧ t.turns = s.turns ∧
    (t.faults = s.faults ∨ t.faults = { s.faults with uninitRead := true })

/-- 60_exceptions.md R175: an error changes only STATUS, for the seven commands and for an illegal word; acceptance
changes only CMD and STATUS, so the outputs stay as they were before it. -/
def Obligations.ErrorsChangeOnlyStatus : Prop :=
  (∀ (i : Instr) (s t : State), exec i s = .next t → t.status.err ≠ 0 → t = { s with status := t.status }) ∧
  (∀ (s : State) (w : Illegal), CoreNext s → decode s.cmd = .illegal w →
    ∃ t, step s = .next t ∧ t = { s with status := t.status, turns := s.turns.tail }) ∧
  (∀ (s : State) (w : Word) (rest : List HostOp), HostNext s (.access (.write32 0x00 w)) rest → s.status.busy = false →
    ∃ t, step s = .next t ∧
      t = { taken s rest with cmd := w, status := t.status, replies := s.replies ++ [.written] })

/-- 60_exceptions.md R171, R174: the code and OVF each command completes with, as a function of its operands alone; a command
that ends with a code has read no IBUF cell (no UNINIT_READ) and written nothing but STATUS. -/
def Obligations.ErrorCodePerCommand : Prop :=
  ∀ s : State,
    (∃ t, exec .pack s = .next t ∧
      t.status.err = (if 1024 ≤ s.bodyLen.toInt ∧ s.ctrl = 1 then 3 else 0) ∧
      t.status.ovf = decide (1024 ≤ s.bodyLen.toInt)) ∧
    (∃ t, exec .buildHeader s = .next t ∧ t.status.err = 0 ∧ t.status.ovf = false) ∧
    (∃ t, exec .encodeHeaderOnly s = .next t ∧ t.status.err = 0 ∧ t.status.ovf = false) ∧
    (∀ i ∈ [Instr.checksum, Instr.escape, Instr.unescape], ∃ t, exec i s = .next t ∧
      (s.RangeFails → t.status.err = 1) ∧ (¬s.RangeFails → t.status.err = 0) ∧ t.status.ovf = false) ∧
    (∃ t, exec .encodeWithBody s = .next t ∧
      t.status.err = (if s.params.ibufBytes < s.inLen.toNat then 1 else if 1024 ≤ s.inLen.toNat ∧ s.ctrl = 1 then 3 else 0) ∧
      t.status.ovf = decide (1024 ≤ s.inLen.toNat ∧ s.inLen.toNat ≤ s.params.ibufBytes)) ∧
    (∀ w, CoreNext s → decode s.cmd = .illegal w → ∃ t, step s = .next t ∧ t.status.err = 2 ∧ t.status.ovf = false ∧
      t = { s with status := t.status, turns := s.turns.tail }) ∧
    (∀ i t, exec i s = .next t → t.status.err ≠ 0 → t = { s with status := t.status })

/-- 30_encoding.md R88: what each command that completes with `ERR = 0` writes. -/
def Obligations.OutputsPerCommand : Prop :=
  ∀ (i : Instr) (s t : State), s.params.wf = true → exec i s = .next t → t.status.err = 0 →
    match i with
    | .pack => t.outLen = s.outLen ∧ t.obuf = s.obuf ∧
        t.events = s.events ++ (if 1024 ≤ s.bodyLen.toInt then [.diagOvf s.bodyLen] else [])
    | .checksum => t.outLen = s.outLen ∧ t.obuf = s.obuf ∧ t.events = s.events
    | .buildHeader => t.result = 0 ∧ t.outLen = 12 ∧ t.events = s.events ∧
        ∀ a, (a < 12 → (t.obuf.read a).isSome) ∧ (12 ≤ a → t.obuf.read a = s.obuf.read a)
    | .escape | .unescape => t.result = 0 ∧ t.events = s.events ∧
        ∀ a, (a < t.outLen.toNat → (t.obuf.read a).isSome) ∧ (t.outLen.toNat ≤ a → t.obuf.read a = s.obuf.read a)
    | .encodeWithBody =>
        t.events = s.events ++ (if 1024 ≤ s.inLen.toNat then [.diagOvf s.inLen] else []) ∧
        ∀ a, (a < t.outLen.toNat → (t.obuf.read a).isSome) ∧ (t.outLen.toNat ≤ a → t.obuf.read a = s.obuf.read a)
    | .encodeHeaderOnly => t.events = s.events ∧
        ∀ a, (a < t.outLen.toNat → (t.obuf.read a).isSome) ∧ (t.outLen.toNat ≤ a → t.obuf.read a = s.obuf.read a)

/-- 60_exceptions.md R172: `CheckRange` decides CHECKSUM, ESCAPE and UNESCAPE; the source's `start = -1` and `end = len+1`
fail it. -/
def Obligations.RangeCheckDecides : Prop :=
  ∀ (i : Instr) (s : State), i = .checksum ∨ i = .escape ∨ i = .unescape →
    (s.RangeFails → exec i s = .next (completed s 1 false)) ∧
    (s.start.toInt = -1 ∨ s.endIdx.toInt = s.inLen.toNat + 1 → exec i s = .next (completed s 1 false)) ∧
    (¬s.RangeFails →
      (0 ≤ s.start.toInt ∧ s.start.toInt ≤ s.endIdx.toInt ∧ s.endIdx.toInt ≤ s.inLen.toNat ∧
        s.inLen.toNat ≤ s.params.ibufBytes) ∧
      ∃ t, exec i s = .next t ∧ t.status.err = 0)

/-- 60_exceptions.md R182: a command that passes its checks and reads an unwritten IBUF cell records UNINIT_READ and
completes. -/
def Obligations.UnwrittenReadRecorded : Prop :=
  ∀ (s : State) (n st en a : Nat), s.ibuf.read a = none →
    (s.RangeIs n st en → st ≤ a → a < en →
      ∃ t, exec .checksum s = .next t ∧ t.faults = { s.faults with uninitRead := true } ∧
        t.status = { busy := false, done := true, ovf := false, err := 0 }) ∧
    (s.RangeIs n st en → a < n → ∀ i, i = .escape ∨ i = .unescape →
      ∃ t, exec i s = .next t ∧ t.faults = { s.faults with uninitRead := true } ∧
        t.status = { busy := false, done := true, ovf := false, err := 0 }) ∧
    (s.inLen.toNat ≤ s.params.ibufBytes → s.inLen.toNat < 1024 ∨ s.ctrl = 0 → a < s.inLen.toNat →
      ∃ t, exec .encodeWithBody s = .next t ∧ t.faults = { s.faults with uninitRead := true } ∧
        t.status = { busy := false, done := true, ovf := decide (1024 ≤ s.inLen.toNat), err := 0 })

/-! ## PACK -/

/-- 40_pack.md R101, R103, R104: the whole effect of PACK, hence also its frame and its completion. -/
def Obligations.PackEffect : Prop :=
  ∀ s : State,
    (s.bodyLen.toInt < 1024 ∨ s.ctrl = 0 →
      exec .pack s = .next { completed s 0 (decide (1024 ≤ s.bodyLen.toInt)) with
        result := (packValue s.bodyLen s.encType s.subpkg s.rsvd).setWidth 24,
        events := s.events ++ (if 1024 ≤ s.bodyLen.toInt then [.diagOvf s.bodyLen] else []) }) ∧
    (1024 ≤ s.bodyLen.toInt → s.ctrl = 1 → exec .pack s = .next (completed s 3 true))

/-- 40_pack.md R100, R102: the fields of the packed value, and that the OR of the four terms is their sum. -/
def Obligations.PackedFields : Prop :=
  ∀ (bl et : Word) (sp : BitVec 1) (rs : Word),
    (packValue bl et sp rs).extractLsb' 0 10 = bl.extractLsb' 0 10 ∧
    (packValue bl et sp rs).extractLsb' 10 3 = et.extractLsb' 0 3 ∧
    (packValue bl et sp rs).extractLsb' 13 1 = sp ∧
    (packValue bl et sp rs).extractLsb' 14 2 = rs.extractLsb' 0 2 ∧
    (packValue bl et sp rs).toNat =
      bl.toNat % 2 ^ 10 + et.toNat % 2 ^ 3 * 2 ^ 10 + sp.toNat * 2 ^ 13 + rs.toNat % 2 ^ 2 * 2 ^ 14

/-- 40_pack.md R105: PACK depends only on its four operand registers and OVF_POLICY. -/
def Obligations.PackReadsOnlyItsOperands : Prop :=
  ∀ s s' : State, s.bodyLen = s'.bodyLen → s.encType = s'.encType → s.subpkg = s'.subpkg → s.rsvd = s'.rsvd →
    s.ctrl = s'.ctrl →
    ∃ t t' es, exec .pack s = .next t ∧ exec .pack s' = .next t' ∧ t.status = t'.status ∧
      t.events = s.events ++ es ∧ t'.events = s'.events ++ es ∧ (t.status.err = 0 → t.result = t'.result)

/-! ## BUILD_HEADER -/

/-- 41_header.md R111, R113: the 12 header bytes, and that nothing else changes. -/
def Obligations.BuildHeaderEffect : Prop :=
  ∀ s : State, ∃ t, exec .buildHeader s = .next t ∧
    OutputIs s t
      [s.msgType.extractLsb' 8 8, s.msgType.extractLsb' 0 8, s.bodyProps.extractLsb' 8 8, s.bodyProps.extractLsb' 0 8,
       s.phoneHi.extractLsb' 24 8, s.phoneHi.extractLsb' 16 8, s.phoneHi.extractLsb' 8 8, s.phoneHi.extractLsb' 0 8,
       s.phoneLo.extractLsb' 8 8, s.phoneLo.extractLsb' 0 8, s.flowId.extractLsb' 8 8, s.flowId.extractLsb' 0 8] ∧
    t = { completed s 0 false with result := 0, outLen := 12, obuf := t.obuf }

/-! ## CHECKSUM -/

/-- 42_checksum.md R121: the whole effect of CHECKSUM on written cells and on a bad range. -/
def Obligations.ChecksumEffect : Prop :=
  ∀ s : State,
    (∀ n st en bs, s.RangeIs n st en → bs.length = en - st → s.Holds st bs →
      exec .checksum s = .next { completed s 0 false with
        result := (bs.foldl (fun c b => c ^^^ b) 0#8).setWidth 24 }) ∧
    (s.RangeFails → exec .checksum s = .next (completed s 1 false))

/-- 42_checksum.md R122: order independence, concatenation, self-cancellation and the bitwise law. -/
def Obligations.ChecksumLaws : Prop :=
  (∀ s p : List Byte, s.Perm p → checksum s = checksum p) ∧
  (∀ s t : List Byte, checksum (s ++ t) = checksum s ^^^ checksum t) ∧
  (∀ s : List Byte, checksum (s ++ [checksum s]) = 0) ∧
  (∀ (s : List Byte) (k : Nat), (checksum s).getLsbD k = decide ((s.countP fun b => b.getLsbD k) % 2 = 1))

/-! ## ESCAPE and UNESCAPE -/

/-- 43_escape.md R131: the whole effect of ESCAPE, with the byte table of R130, on written cells and on a bad range. -/
def Obligations.EscapeEffect : Prop :=
  ∀ s : State,
    (∀ n st en buf, s.RangeIs n st en → buf.length = n → s.Holds 0 buf →
      ∃ t out, exec .escape s = .next t ∧
        out = buf.take st ++
          (((buf.take en).drop st).flatMap (fun b => if b = 0x7E#8 then [0x7D#8, 0x02#8]
            else if b = 0x7D#8 ∧ s.params.symmetricEscape = true then [0x7D#8, 0x01#8] else [b]) ++ buf.drop en) ∧
        OutputIs s t out ∧
        t = { completed s 0 false with result := 0, outLen := BitVec.ofNat 32 out.length, obuf := t.obuf }) ∧
    (s.RangeFails → exec .escape s = .next (completed s 1 false))

/-- 43_escape.md R140: the whole effect of UNESCAPE on written cells and on a bad range. -/
def Obligations.UnescapeEffect : Prop :=
  ∀ s : State,
    (∀ n st en buf, s.RangeIs n st en → buf.length = n → s.Holds 0 buf →
      ∃ t out, exec .unescape s = .next t ∧
        out = buf.take st ++ (unescRange ((buf.take en).drop st) ++ buf.drop en) ∧
        OutputIs s t out ∧
        t = { completed s 0 false with result := 0, outLen := BitVec.ofNat 32 out.length, obuf := t.obuf }) ∧
    (s.RangeFails → exec .unescape s = .next (completed s 1 false))

/-- 43_escape.md R139, R141: `UnescRange` by cases, first match wins, and `Unescape`. -/
def Obligations.UnescRangeByCases : Prop :=
  unescRange [] = [] ∧
  (∀ t, unescRange (0x7D#8 :: 0x01#8 :: t) = 0x7D#8 :: unescRange t) ∧
  (∀ t, unescRange (0x7D#8 :: 0x02#8 :: t) = 0x7E#8 :: unescRange t) ∧
  (∀ b t, ¬(b = 0x7D#8 ∧ (t.head? = some 0x01#8 ∨ t.head? = some 0x02#8)) → unescRange (b :: t) = b :: unescRange t) ∧
  (∀ (buf : List Byte) (st en : Nat), st ≤ en → en ≤ buf.length →
    unescape buf st en = buf.take st ++ unescRange ((buf.take en).drop st) ++ buf.drop en)

/-- 43_escape.md R142: a marker as the last byte of the range is copied, and what follows it too. -/
def Obligations.PairNeverStraddlesRangeEnd : Prop :=
  ∀ (buf : List Byte) (st en : Nat), st ≤ en → en < buf.length → buf[en]? = some 0x7D#8 →
    unescape buf st (en + 1) = buf.take st ++ (unescRange ((buf.take en).drop st) ++ 0x7D#8 :: buf.drop (en + 1))

/-- 43_escape.md R135, R136: the length of an escaped buffer, its bound, and that it fits in OBUF. -/
def Obligations.EscapedLength : Prop :=
  ∀ (p : Config.Params) (buf : List Byte) (st en : Nat), st ≤ en → en ≤ buf.length →
    (escape p buf st en).length = buf.length + escapeGrowth p ((buf.take en).drop st) ∧
    (escape p buf st en).length ≤ buf.length + (en - st) ∧
    buf.length + (en - st) ≤ 2 * buf.length ∧
    (p.wf = true → buf.length ≤ p.ibufBytes → (escape p buf st en).length ≤ p.obufBytes)

/-- 43_escape.md R137: identity, delimiter freedom and composition. -/
def Obligations.EscapeLaws : Prop :=
  ∀ p : Config.Params,
    (∀ (buf : List Byte) (st en : Nat), st ≤ en → en ≤ buf.length → 0x7E#8 ∉ (buf.take en).drop st →
      (p.symmetricEscape = true → 0x7D#8 ∉ (buf.take en).drop st) → escape p buf st en = buf) ∧
    (∀ r : List Byte, 0x7E#8 ∉ escRange p r) ∧
    (∀ r t : List Byte, escRange p (r ++ t) = escRange p r ++ escRange p t)

/-- 43_escape.md R144: the length of an unescaped buffer and its bounds. -/
def Obligations.UnescapedLength : Prop :=
  ∀ (buf : List Byte) (st en : Nat), st ≤ en → en ≤ buf.length →
    (unescape buf st en).length + pairsConsumed ((buf.take en).drop st) = buf.length ∧
    buf.length - (en - st) / 2 ≤ (unescape buf st en).length ∧
    (unescape buf st en).length ≤ buf.length

/-- 43_escape.md R145: unescaping the range the escaped bytes occupy restores the buffer. -/
def Obligations.UnescapeRestoresEscaped : Prop :=
  ∀ (p : Config.Params) (buf : List Byte) (st en : Nat), st ≤ en → en ≤ buf.length →
    (p.symmetricEscape = true ∨ 0x7D#8 ∉ (buf.take en).drop st) →
    unescape (escape p buf st en) st (en + escapeGrowth p ((buf.take en).drop st)) = buf

/-- 43_escape.md R146: with the asymmetric table, exactly the byte ranges without a `7D 01` or `7D 02` pair come back, and
so for the interior of a frame, its checksum escaped or not; the two ranges the rule names do not. -/
def Obligations.AsymmetricRoundTripExactly : Prop :=
  ∀ p : Config.Params, p.symmetricEscape = false →
    (∀ r : List Byte, unescRange (escRange p r) = r ↔ ¬HasPair r) ∧
    escRange p [0x7D#8, 0x01#8] = [0x7D#8, 0x01#8] ∧ escRange p [0x7D#8, 0x02#8] = [0x7D#8, 0x02#8] ∧
    unescRange (escRange p [0x7D#8, 0x01#8]) = [0x7D#8] ∧ unescRange (escRange p [0x7D#8, 0x02#8]) = [0x7E#8] ∧
    (∀ (body : List Byte) (fid mt : Half) (phone : Vector Byte 6),
      unescape (encodeFrame p body fid phone mt) 1 ((encodeFrame p body fid phone mt).length - 1) =
          0x7E#8 :: (framePayload body fid phone mt ++ [checksum (framePayload body fid phone mt), 0x7E#8]) ↔
        ¬HasPair (framePayload body fid phone mt ++ [checksum (framePayload body fid phone mt)]))

/-! ## ENCODE_WITH_BODY and ENCODE_HEADER_ONLY -/

/-- 44_frame.md R152: the whole effect of ENCODE_WITH_BODY on a written body, and its two errors. -/
def Obligations.EncodeWithBodyEffect : Prop :=
  ∀ s : State,
    (∀ body, body.length = s.inLen.toNat → s.inLen.toNat ≤ s.params.ibufBytes → (s.inLen.toNat < 1024 ∨ s.ctrl = 0) →
      s.Holds 0 body →
      ∃ t out, exec .encodeWithBody s = .next t ∧
        out = encodeFrame s.params body s.flowId s.phone s.msgType ∧ OutputIs s t out ∧
        t = { completed s 0 (decide (1024 ≤ s.inLen.toNat)) with
          result := checksum (buildHeader s.phone s.msgType ((s.inLen.extractLsb' 0 10).setWidth 16) s.flowId ++ body)
            ++ (s.inLen.extractLsb' 0 10).setWidth 16,
          outLen := BitVec.ofNat 32 out.length, obuf := t.obuf,
          events := s.events ++ (if 1024 ≤ s.inLen.toNat then [.diagOvf s.inLen] else []) }) ∧
    (s.params.ibufBytes < s.inLen.toNat → exec .encodeWithBody s = .next (completed s 1 false)) ∧
    (1024 ≤ s.inLen.toNat → s.inLen.toNat ≤ s.params.ibufBytes → s.ctrl = 1 →
      exec .encodeWithBody s = .next (completed s 3 true))

/-- 44_frame.md R156: the whole effect of ENCODE_HEADER_ONLY. -/
def Obligations.EncodeHeaderOnlyEffect : Prop :=
  ∀ s : State, ∃ t out, exec .encodeHeaderOnly s = .next t ∧
    out = encodeFrame s.params [] s.flowId s.phone s.msgType ∧ OutputIs s t out ∧
    t = { completed s 0 false with
      result := checksum (buildHeader s.phone s.msgType 0 s.flowId) ++ 0#16,
      outLen := BitVec.ofNat 32 out.length, obuf := t.obuf }

/-- 44_frame.md R150, R151: a frame is the two delimiters around the escaped header, body and checksum, or around the
escaped header and body and the raw checksum. -/
def Obligations.FrameLayout : Prop :=
  ∀ (p : Config.Params) (body : List Byte) (fid mt : Half) (phone : Vector Byte 6), body.length < 2 ^ 32 →
    let payload := buildHeader phone mt (BitVec.ofNat 16 (body.length % 1024)) fid ++ body
    let cs := payload.foldl (fun c b => c ^^^ b) 0#8
    (p.escapeChecksum = true →
      encodeFrame p body fid phone mt = [0x7E#8] ++ escRange p (payload ++ [cs]) ++ [0x7E#8]) ∧
    (p.escapeChecksum = false →
      encodeFrame p body fid phone mt = [0x7E#8] ++ escRange p payload ++ [cs] ++ [0x7E#8])

/-- 44_frame.md R153: a frame is `Escape` of the raw frame over its interior. -/
def Obligations.FrameIsEscapedRawFrame : Prop :=
  ∀ (p : Config.Params) (body : List Byte) (fid mt : Half) (phone : Vector Byte 6),
    let payload := framePayload body fid phone mt
    let raw := [0x7E#8] ++ payload ++ [checksum payload] ++ [0x7E#8]
    encodeFrame p body fid phone mt = escape p raw 1 (if p.escapeChecksum then raw.length - 1 else raw.length - 2)

/-- 44_frame.md R154: the delimiters of a frame. -/
def Obligations.FrameDelimitersOnlyAtEnds : Prop :=
  ∀ (p : Config.Params) (body : List Byte) (fid mt : Half) (phone : Vector Byte 6),
    ∃ inner, encodeFrame p body fid phone mt = 0x7E#8 :: (inner ++ [0x7E#8]) ∧
      (p.escapeChecksum = true → 0x7E#8 ∉ inner) ∧
      (p.escapeChecksum = false →
        ∃ rest, inner = rest ++ [checksum (framePayload body fid phone mt)] ∧ 0x7E#8 ∉ rest)

/-- 44_frame.md R155: the length of a frame, its bound, and that it fits in OBUF. -/
def Obligations.FrameLength : Prop :=
  ∀ (p : Config.Params) (body : List Byte) (fid mt : Half) (phone : Vector Byte 6),
    let payload := framePayload body fid phone mt
    (encodeFrame p body fid phone mt).length =
      15 + body.length + escapeGrowth p (if p.escapeChecksum then payload ++ [checksum payload] else payload) ∧
    (encodeFrame p body fid phone mt).length ≤ 28 + 2 * body.length ∧
    (p.wf = true → body.length ≤ p.ibufBytes → (encodeFrame p body fid phone mt).length ≤ p.obufBytes)

/-- 44_frame.md R158: with `IN_LEN = 0` the two ENCODE commands do the same. -/
def Obligations.EmptyBodyEncodesAsHeaderOnly : Prop :=
  ∀ s : State, s.inLen = 0 → exec .encodeWithBody s = exec .encodeHeaderOnly s

/-- 44_frame.md R157: a body of 1024 bytes or more under OVF_POLICY = 0. -/
def Obligations.OversizedBodyDeclaresLengthMod1024 : Prop :=
  ∀ (s : State) (body : List Byte), s.params.wf = true → body.length = s.inLen.toNat → 1024 ≤ body.length →
    body.length ≤ s.params.ibufBytes → s.ctrl = 0 → s.Holds 0 body →
    ∃ t out hdr, exec .encodeWithBody s = .next t ∧
      t.status = { busy := false, done := true, ovf := true, err := 0 } ∧
      t.events = s.events ++ [.diagOvf (BitVec.ofNat 32 body.length)] ∧
      OutputIs s t out ∧ t.outLen.toNat = out.length ∧
      hdr = buildHeader s.phone s.msgType (BitVec.ofNat 16 (body.length % 1024)) s.flowId ∧
      (s.params.escapeChecksum = true →
        out = [0x7E#8] ++ escRange s.params (hdr ++ body ++ [checksum (hdr ++ body)]) ++ [0x7E#8]) ∧
      (s.params.escapeChecksum = false →
        out = [0x7E#8] ++ escRange s.params (hdr ++ body) ++ [checksum (hdr ++ body)] ++ [0x7E#8])

/-- 42_checksum.md R122 and 43_escape.md R146 (R145 for the symmetric table) together: a receiver that unescapes the interior
of a frame without a pair gets header, body and checksum back, and their XOR is 0. -/
def Obligations.ReceiverRecoversFrame : Prop :=
  ∀ (p : Config.Params) (body : List Byte) (fid mt : Half) (phone : Vector Byte 6), p.escapeChecksum = true →
    (p.symmetricEscape = true ∨
      ¬HasPair (framePayload body fid phone mt ++ [checksum (framePayload body fid phone mt)])) →
    let frame := encodeFrame p body fid phone mt
    let inner := unescRange ((frame.take (frame.length - 1)).drop 1)
    inner = framePayload body fid phone mt ++ [checksum (framePayload body fid phone mt)] ∧ checksum inner = 0

/-! ## The host port -/

/-- 10_state.md R41, R43, R44: the four constants a host reads at any time, for any parameters, and what CFG reports; with the
reset column of R22, what each register reads right after reset (95_test_vectors.md vector R1). -/
def Obligations.RegistersReadAfterReset : Prop :=
  (∀ k : Nat, k ≤ 16 → step { State.reset with host := [.access (.read32 (4 * k))] } =
    .next { State.reset with replies := [.word 0] }) ∧
  (∀ (s : State) (a : Nat) (v : Word) (rest : List HostOp),
    (a, v) ∈ [(0x44, 0x4A380001#32), (0x48, cfgWord s.params), (0x4C, BitVec.ofNat 32 s.params.ibufBytes),
      (0x50, BitVec.ofNat 32 s.params.obufBytes)] →
    HostNext s (.access (.read32 a)) rest → step s = .next { taken s rest with replies := s.replies ++ [.word v] }) ∧
  (∀ p : Config.Params, (cfgWord p).toNat = p.symmetricEscape.toNat + 2 * p.escapeChecksum.toNat) ∧
  (State.reset.params = Config.params ∧ cfgWord Config.params = 0x00000002#32 ∧ Config.params.ibufBytes = 0x1000 ∧
    Config.params.obufBytes = 0x2020)

/-- 10_state.md R25: the STATUS word a host reads, at any time. -/
def Obligations.StatusReadLayout : Prop :=
  ∀ (s : State) (rest : List HostOp), HostNext s (.access (.read32 0x04)) rest →
    ∃ v : Word, step s = .next { taken s rest with replies := s.replies ++ [.word v] } ∧
      v.toNat = s.status.busy.toNat + 2 * s.status.done.toNat + 4 * s.status.ovf.toNat + 16 * s.status.err.toNat

/-- 10_state.md R23: implemented bits hold what was last written, unimplemented bits read 0, other registers keep their
values, and a write of an RO register has no effect; with R22's offsets, its RW and RO column and the field each offset
sets. -/
def Obligations.RegisterWriteReadsBack : Prop :=
  (∀ (s u : State) (a : Nat) (v : Word) (rest : List HostOp), HostNext s (.access (.write32 a v)) rest →
    (s.status.busy = false → (a, u) ∈ writeTable (taken s rest) v →
      step s = .next { u with replies := s.replies ++ [.written] }) ∧
    (a ∈ roOffsets → step s = .next { taken s rest with replies := s.replies ++ [.written] })) ∧
  (∀ (s : State) (r : Reg) (v : Word) (rest : List HostOp), HostNext s (.access (.write32 (regOffset r) v)) rest →
    (regWritable r = true → s.status.busy = false →
      ∃ t, step s = .next t ∧ readReg t r = v &&& implementedBits r ∧
        (∀ r', r' ≠ r → r ≠ .cmd → readReg t r' = readReg s r') ∧
        t.ibuf = s.ibuf ∧ t.obuf = s.obuf ∧ t.events = s.events ∧ t.faults = s.faults) ∧
    (regWritable r = false → step s = .next { taken s rest with replies := s.replies ++ [.written] }) ∧
    (∀ r' : Reg, readReg s r' &&& ~~~implementedBits r' = 0))

/-- 10_state.md R22, R36, R37, R38, 20_memory.md R62, 70_reset_and_hazards.md R196: what a 32-bit read answers at every
offset of the register map, idle and busy; `readReg` is the same map by register name. -/
def Obligations.RegisterReadAnswers : Prop :=
  (∀ (s : State) (a : Nat) (v : Word) (rest : List HostOp), HostNext s (.access (.read32 a)) rest →
    ((a, v) ∈ readTable s → step s = .next { taken s rest with replies := s.replies ++ [.word v] }) ∧
    (s.status.busy = false → (a, v) ∈ outputTable s →
      step s = .next { taken s rest with replies := s.replies ++ [.word v] }) ∧
    (a ∈ [0x3C, 0x40] →
      ∃ w n, step s = .next { taken s rest with replies := s.replies ++ [.word w], draws := n })) ∧
  (∀ (s : State) (r : Reg), (regOffset r, readReg s r) ∈ readTable s ++ outputTable s)

/-- 20_memory.md R64: which accesses are bus errors, and that they change nothing but the recorded fault. -/
def Obligations.BusErrorsRecordedAndChangeNothing : Prop :=
  ∀ (s : State) (x : PortAccess) (rest : List HostOp), HostNext s (.access x) rest →
    (BusError s.params x → ∃ n r, step s = .next { taken s rest with
        faults := { s.faults with busFault := true }, draws := n, replies := s.replies ++ [r] } ∧
      (r = .busErrorWrite ∨ (∃ v, r = .busErrorWord v) ∨ ∃ b, r = .busErrorByte b)) ∧
    (¬BusError s.params x → ∃ t, step s = .next t ∧ t.faults.busFault = s.faults.busFault)

/-- 20_memory.md R63: the four accesses to the buffer windows, while idle. -/
def Obligations.BufferWindowAccesses : Prop :=
  ∀ (s : State) (i : Nat) (b : Byte) (rest : List HostOp), s.params.wf = true → s.status.busy = false →
    (i < s.params.ibufBytes → HostNext s (.access (.write8 (0x10000 + i) b)) rest →
      ∃ t, step s = .next t ∧ (∀ a, t.ibuf.read a = if a = i then some b else s.ibuf.read a) ∧
        t = { taken s rest with ibuf := t.ibuf, replies := s.replies ++ [.written] }) ∧
    (i < s.params.ibufBytes → HostNext s (.access (.read8 (0x10000 + i))) rest →
      (∀ c, s.ibuf.read i = some c → step s = .next { taken s rest with replies := s.replies ++ [.byte c] }) ∧
      (s.ibuf.read i = none →
        ∃ c n, step s = .next { taken s rest with replies := s.replies ++ [.byte c], draws := n })) ∧
    (i < s.params.obufBytes → HostNext s (.access (.read8 (0x20000 + i))) rest →
      (∀ c, s.obuf.read i = some c → step s = .next { taken s rest with replies := s.replies ++ [.byte c] }) ∧
      (s.obuf.read i = none →
        ∃ c n, step s = .next { taken s rest with replies := s.replies ++ [.byte c], draws := n })) ∧
    (i < s.params.obufBytes → HostNext s (.access (.write8 (0x20000 + i) b)) rest →
      step s = .next { taken s rest with replies := s.replies ++ [.written] })

/-- 70_reset_and_hazards.md R195: which writes during BUSY = 1 are hazards, by the offsets of 10_state.md R22. -/
def Obligations.BusyWritesAreHazards : Prop :=
  ∀ (s : State) (rest : List HostOp), s.params.wf = true → s.status.busy = true →
    (∀ a v, a ∈ rwOffsets → HostNext s (.access (.write32 a v)) rest →
      ∃ t, step s = .next t ∧ t.faults = { s.faults with hostHazard := true }) ∧
    (∀ i b, i < s.params.ibufBytes → HostNext s (.access (.write8 (0x10000 + i) b)) rest →
      ∃ t, step s = .next t ∧ t.faults = { s.faults with hostHazard := true }) ∧
    (∀ a v, a ∈ roOffsets → HostNext s (.access (.write32 a v)) rest →
      step s = .next { taken s rest with replies := s.replies ++ [.written] }) ∧
    (∀ i b, i < s.params.obufBytes → HostNext s (.access (.write8 (0x20000 + i) b)) rest →
      step s = .next { taken s rest with replies := s.replies ++ [.written] })

/-- The model's choice for 60_exceptions.md R183 and 93_implementation_defined.md section 2 (log entry 5): after a hazard
no further result is defined until reset. -/
def Obligations.HazardStopsUntilReset : Prop :=
  ∀ s : State,
    (s.hazarded = true → (∀ rest, s.host ≠ .reset :: rest) → step s = .fault .hostHazard) ∧
    (s.hazarded = true → ∀ rest, s.host = .reset :: rest → ∃ t, step s = .next t ∧ t.hazarded = false) ∧
    (s.hazarded = false → ∃ t, step s = .next t)

/-- 70_reset_and_hazards.md R196: during BUSY = 1 a read of RESULT, OUT_LEN or an OBUF cell answers some value and records
no fault; every other register answers its value, and so does an IBUF cell (some byte where it is unwritten, 20_memory.md
R63). -/
def Obligations.BusyReadAnswers : Prop :=
  ∀ (s : State) (rest : List HostOp), s.params.wf = true → s.status.busy = true →
    (∀ a, a ∈ [0x3C, 0x40] → HostNext s (.access (.read32 a)) rest →
      ∃ v n, step s = .next { taken s rest with replies := s.replies ++ [.word v], draws := n }) ∧
    (∀ a v, (a, v) ∈ readTable s → HostNext s (.access (.read32 a)) rest →
      step s = .next { taken s rest with replies := s.replies ++ [.word v] }) ∧
    (∀ i, i < s.params.obufBytes → HostNext s (.access (.read8 (0x20000 + i))) rest →
      ∃ b n, step s = .next { taken s rest with replies := s.replies ++ [.byte b], draws := n }) ∧
    (∀ i, i < s.params.ibufBytes → HostNext s (.access (.read8 (0x10000 + i))) rest →
      (∀ c, s.ibuf.read i = some c → step s = .next { taken s rest with replies := s.replies ++ [.byte c] }) ∧
      (s.ibuf.read i = none →
        ∃ b n, step s = .next { taken s rest with replies := s.replies ++ [.byte b], draws := n }))

/-- 20_memory.md R70: a read changes no register, buffer cell, flag or event; `wait` reads STATUS until DONE (30_encoding.md
R93). -/
def Obligations.ReadsHaveNoSideEffect : Prop :=
  ∀ (s : State) (rest : List HostOp),
    (∀ x, IsReadAccess x → HostNext s (.access x) rest →
      ∃ rs n b, step s = .next { taken s rest with
        replies := s.replies ++ [rs], draws := n, faults := { s.faults with busFault := b } }) ∧
    (HostNext s .waitDone rest →
      ∃ v, step s = .next { taken s (if s.status.done then rest else s.host) with
        replies := s.replies ++ [.word v] } ∧ v.getLsbD 1 = s.status.done)

/-! ## Reset -/

/-- 70_reset_and_hazards.md R190: the reset step, also while a command is in flight. -/
def Obligations.ResetStepEffect : Prop :=
  ∀ (s : State) (rest : List HostOp), s.host = .reset :: rest → (s.hazarded = true ∨ nextAgent s = .host) →
    ∃ t, step s = .next t ∧
      t.cmd = 0 ∧ t.status = { busy := false, done := false, ovf := false, err := 0 } ∧ t.ctrl = 0 ∧ t.bodyLen = 0 ∧
      t.encType = 0 ∧ t.subpkg = 0 ∧ t.rsvd = 0 ∧ t.msgType = 0 ∧ t.bodyProps = 0 ∧ t.flowId = 0 ∧ t.phoneHi = 0 ∧
      t.phoneLo = 0 ∧ t.inLen = 0 ∧ t.start = 0 ∧ t.endIdx = 0 ∧ t.result = 0 ∧ t.outLen = 0 ∧
      (∀ a, t.ibuf.read a = none) ∧ (∀ a, t.obuf.read a = none) ∧ t.events = s.events ∧ t.faults = s.faults ∧
      t.params = s.params ∧ (∀ r, r = .id ∨ r = .cfg ∨ r = .ibufSize ∨ r = .obufSize → readReg t r = readReg s r)

/-- 70_reset_and_hazards.md R192: the reset values are legal operands. -/
def Obligations.CommandsRunRightAfterReset : Prop :=
  (∃ t, step (State.reset.withFetchWord 32 0x1) = .next t ∧ t.result = 0 ∧ t.status.word = 0x02#32) ∧
  (∃ t, step (State.reset.withFetchWord 32 0x3) = .next t ∧ t.result = 0 ∧ t.status.word = 0x02#32 ∧
    t.faults.uninitRead = false) ∧
  (∃ t, step (State.reset.withFetchWord 32 0x7) = .next t ∧ t.result = 0 ∧ t.outLen = 15 ∧
    t.obuf.map Prod.snd = 0x7E#8 :: (List.replicate 13 0x00#8 ++ [0x7E#8]) ∧ t.obuf.map Prod.fst = List.range 15)

/-! ## Host programs and the address map -/

/-- 30_encoding.md R92, R93: what each statement of a host program expands to. That `wait` is one entry of the host's list,
where R93 gives a read of STATUS and a branch back, is the model's choice (log entry 13). -/
def Obligations.HostStatementsExpand : Prop :=
  (∀ r v, expandStmt (.wr r v) = [.access (.write32 (regOffset r) v)]) ∧
  (∀ r, expandStmt (.rd r) = [.access (.read32 (regOffset r))]) ∧
  (∀ i b, expandStmt (.wrb i b) = [.access (.write8 (0x10000 + i) b)]) ∧
  (∀ i, expandStmt (.rdbObuf i) = [.access (.read8 (0x20000 + i))]) ∧
  (∀ i, expandStmt (.rdbIbuf i) = [.access (.read8 (0x10000 + i))]) ∧
  (∀ i bs k, (expandStmt (.ldb i bs))[k]? = (bs[k]?).map fun b => HostOp.access (.write8 (0x10000 + i + k) b)) ∧
  (∀ c, expandStmt (.command c) = expandStmt (.wr .cmd (encode c))) ∧
  expandStmt .wait = [.waitDone] ∧
  (∀ n, expandStmt (.rdout n) = (List.range n).flatMap fun k => expandStmt (.rdbObuf k))

/-- 20_memory.md R61: the FCC's local offsets are the 192 KiB from `P_BASE`, wherever that is. -/
def Obligations.LocalOffsetsFromBase : Prop :=
  ∀ addr off : Nat, localOffset addr = some off ↔ addr = Config.pBase + off ∧ off ≤ 0x2FFFF

/-! ## Invariants of the machine -/

/-- The state after reset satisfies the invariant. Its last clause, no hazard at reset, is about the model's own field
`hazarded`, false in `State.reset` by the model's choice (log entry 5). -/
def Obligations.ResetSatisfiesInvariant : Prop := State.reset.Inv

/-- Every step from a state with the invariant leads to one with it (10_state.md R25, R26, R37, R46, R47; 00_scope.md R11).
Its clause on the field `hazarded`, that a hazard is recorded in a busy FCC and that a reset ends it, is the model's choice
for 60_exceptions.md section 3 (log entry 5). -/
def Obligations.StepKeepsInvariant : Prop :=
  ∀ s t : State, s.Inv → step s = .next t → t.Inv

/-- 10_state.md R50: the event output is append-only; a step emits at most one event, `DIAG_OVF` of the length that
overflowed, and only a core step of PACK or ENCODE_WITH_BODY emits it. Reset keeps it. -/
def Obligations.EventOutputAppendOnly : Prop :=
  ∀ s t : State, step s = .next t →
    ∃ es, t.events = s.events ++ es ∧
      (es = [] ∨
        (CoreNext s ∧ decode s.cmd = .instr .pack ∧ 1024 ≤ s.bodyLen.toInt ∧ es = [.diagOvf s.bodyLen]) ∨
        (CoreNext s ∧ decode s.cmd = .instr .encodeWithBody ∧ 1024 ≤ s.inLen.toNat ∧ es = [.diagOvf s.inLen]))

/-- 10_state.md R52: a recorded model fault stays recorded. -/
def Obligations.ModelFaultsStayRecorded : Prop :=
  ∀ s t : State, step s = .next t →
    (s.faults.busFault = true → t.faults.busFault = true) ∧
    (s.faults.uninitRead = true → t.faults.uninitRead = true) ∧
    (s.faults.hostHazard = true → t.faults.hostHazard = true)

/-- 10_state.md R47, R46: only the core's step and reset change OBUF, RESULT or OUT_LEN; no core step changes IBUF; no step
changes the parameters (R53: configuration). -/
def Obligations.OnlyCoreWritesOutputs : Prop :=
  ∀ s t : State, step s = .next t →
    (nextAgent s = .host → (∀ rest, s.host ≠ .reset :: rest) →
      t.obuf = s.obuf ∧ t.result = s.result ∧ t.outLen = s.outLen) ∧
    (s.hazarded = false → nextAgent s = .core → t.ibuf = s.ibuf) ∧
    t.params = s.params

/-- 30_encoding.md R85: the core's step is always eventually taken. With a host that reads, waits and makes only writes that
are no hazard (70_reset_and_hazards.md R195), an accepted command completes within one step more than the schedule lists;
the schedule is the model's (log entry 1). -/
def Obligations.AcceptedCommandCompletes : Prop :=
  ∀ s : State, s.hazarded = false → s.status.busy = true → (∀ op ∈ s.host, IsQuiet s.params op) →
    ∃ k t, k ≤ s.turns.length + 1 ∧ Sys2Proof.core.run k s = .next t ∧
      t.status.busy = false ∧ t.status.done = true

/-- 10_state.md R51, 70_reset_and_hazards.md R199: what an accepted command leaves does not depend on LATENCY, which is the
core's place in the schedule (log entry 1), or on what the host does meanwhile that is no hazard, if the IBUF cells the
command reads are written. -/
def Obligations.LatencyDoesNotChangeOutcome : Prop :=
  ∀ (s u : State) (i : Instr), s.hazarded = false → s.status.busy = true → decode s.cmd = .instr i →
    (∀ op ∈ s.host, IsQuiet s.params op) → (∀ a, s.ReadsCell i a → s.ibuf.read a ≠ none) → exec i s = .next u →
    ∃ k t, k ≤ s.turns.length + 1 ∧ Sys2Proof.core.run k s = .next t ∧
      t.status = u.status ∧ t.result = u.result ∧ t.outLen = u.outLen ∧ t.obuf = u.obuf ∧ t.events = u.events ∧
      t.ibuf = u.ibuf
end

