-- ==== Sys2Proof/Laws/Codec.lean ====
section
/-! SUPPORT. The small lemmas of the pure functions (40_pack.md to 44_frame.md): one unfolding each. -/

namespace Sys2Proof.Machine

theorem escRange_nil (p : Config.Params) : escRange p [] = [] := rfl

theorem escRange_cons (p : Config.Params) (b : Byte) (r : List Byte) :
    escRange p (b :: r) = escByte p b ++ escRange p r := rfl

theorem escRange_append (p : Config.Params) (r t : List Byte) :
    escRange p (r ++ t) = escRange p r ++ escRange p t := by
  simp [escRange]

theorem escByte_delim (p : Config.Params) : escByte p delim = [mark, 0x02#8] := rfl

theorem escByte_mark (p : Config.Params) :
    escByte p mark = if p.symmetricEscape then [mark, 0x01#8] else [mark] := by
  simp [escByte, mark, delim]

theorem escByte_other {p : Config.Params} {b : Byte} (h : b ≠ delim) (h' : b ≠ mark) : escByte p b = [b] := by
  simp [escByte, h, h']

theorem escByte_ne_nil (p : Config.Params) (b : Byte) : escByte p b ≠ [] := by
  unfold escByte
  split_ifs <;> simp

/-- One byte escapes to at most two. -/
theorem length_escByte_le (p : Config.Params) (b : Byte) : (escByte p b).length ≤ 2 := by
  unfold escByte
  split_ifs <;> simp

theorem length_escRange_le (p : Config.Params) (r : List Byte) : (escRange p r).length ≤ 2 * r.length := by
  induction r with
  | nil => simp [escRange_nil]
  | cons b r ih =>
    have := length_escByte_le p b
    rw [escRange_cons, List.length_append, List.length_cons]
    omega

theorem unescRange_nil : unescRange [] = [] := by simp [unescRange]

theorem unescRange_single (b : Byte) : unescRange [b] = [b] := by simp [unescRange]

theorem unescRange_mark_one (t : List Byte) : unescRange (mark :: 0x01#8 :: t) = mark :: unescRange t := by
  simp [unescRange]

theorem unescRange_mark_two (t : List Byte) : unescRange (mark :: 0x02#8 :: t) = delim :: unescRange t := by
  simp [unescRange]

/-- A byte that starts no pair is copied. -/
theorem unescRange_copy {b : Byte} {t : List Byte}
    (h : b = mark → t.head? ≠ some 0x01#8 ∧ t.head? ≠ some 0x02#8) : unescRange (b :: t) = b :: unescRange t := by
  cases t with
  | nil => simp [unescRange]
  | cons c t =>
    rw [unescRange, if_neg, if_neg]
    · rintro ⟨hb, rfl⟩; exact (h hb).2 rfl
    · rintro ⟨hb, rfl⟩; exact (h hb).1 rfl

theorem unescRange_not_mark {b : Byte} {t : List Byte} (h : b ≠ mark) : unescRange (b :: t) = b :: unescRange t :=
  unescRange_copy fun hb => absurd hb h

/-- Unescaping never lengthens. -/
theorem length_unescRange_le (r : List Byte) : (unescRange r).length ≤ r.length := by
  fun_induction unescRange r with
  | case1 => simp
  | case2 => simp
  | case3 b c t _ ih => simp only [List.length_cons]; omega
  | case4 b c t _ _ ih => simp only [List.length_cons]; omega
  | case5 b c t _ _ ih => simp only [List.length_cons] at *; omega

theorem length_slice_le (s : List Byte) (a b : Nat) : (slice s a b).length ≤ s.length := by
  simp [slice]

theorem length_slice {s : List Byte} {a b : Nat} (hb : b ≤ s.length) : (slice s a b).length = b - a := by
  simp [slice, Nat.min_eq_left hb]

/-- A buffer is what stands before a range, the range and what stands after it (43_escape.md R147). -/
theorem take_slice_drop {s : List Byte} {a b : Nat} (h : a ≤ b) : s.take a ++ (slice s a b ++ s.drop b) = s := by
  have h1 : s.take a ++ slice s a b = s.take b := by
    have := List.take_append_drop a (s.take b)
    rwa [List.take_take, Nat.min_eq_left h] at this
  rw [← List.append_assoc, h1, List.take_append_drop]

theorem length_buildHeader (phone : Vector Byte 6) (mt bp fid : Half) : (buildHeader phone mt bp fid).length = 12 := by
  simp [buildHeader, be16]

theorem length_framePayload (body : List Byte) (fid : Half) (phone : Vector Byte 6) (mt : Half) :
    (framePayload body fid phone mt).length = 12 + body.length := by
  simp [framePayload, length_buildHeader]

theorem encodeFrame_of_escapeChecksum {p : Config.Params} (h : p.escapeChecksum = true) (body : List Byte) (fid : Half)
    (phone : Vector Byte 6) (mt : Half) :
    encodeFrame p body fid phone mt =
      delim :: (escRange p (framePayload body fid phone mt ++ [checksum (framePayload body fid phone mt)]) ++ [delim]) := by
  simp [encodeFrame, h]

theorem encodeFrame_of_rawChecksum {p : Config.Params} (h : p.escapeChecksum = false) (body : List Byte) (fid : Half)
    (phone : Vector Byte 6) (mt : Half) :
    encodeFrame p body fid phone mt =
      delim :: (escRange p (framePayload body fid phone mt) ++ [checksum (framePayload body fid phone mt), delim]) := by
  simp [encodeFrame, h]

/-- The bound on a frame (44_frame.md R155): no frame of a body that fits IBUF overflows OBUF (00_scope.md R11). -/
theorem length_encodeFrame_le (p : Config.Params) (body : List Byte) (fid : Half) (phone : Vector Byte 6) (mt : Half) :
    (encodeFrame p body fid phone mt).length ≤ 28 + 2 * body.length := by
  have hl := length_framePayload body fid phone mt
  cases h : p.escapeChecksum
  · rw [encodeFrame_of_rawChecksum h]
    have := length_escRange_le p (framePayload body fid phone mt)
    simp only [List.length_cons, List.length_append, List.length_nil]
    omega
  · rw [encodeFrame_of_escapeChecksum h]
    have := length_escRange_le p (framePayload body fid phone mt ++ [checksum (framePayload body fid phone mt)])
    simp only [List.length_cons, List.length_append, List.length_nil] at *
    omega

end Sys2Proof.Machine
end

