-- ==== Sys2Proof/Laws/Memory.lean ====
section
/-! SUPPORT. The laws of the byte buffers: what a cell reads after a write, and that a write keeps the canonical form. -/

namespace Sys2Proof.Machine

theorem Memory.read_nil (a : Nat) : Memory.read [] a = none := rfl

theorem Memory.read_cons (k : Nat) (b : Byte) (m : Memory) (a : Nat) :
    Memory.read ((k, b) :: m) a = if a = k then some b else Memory.read m a := by
  by_cases h : a = k
  · simp [Memory.read, h]
  · have h' : (a == k) = false := by simpa using h
    simp [Memory.read, List.lookup_cons, h, h']

theorem Memory.read_append (m m' : Memory) (a : Nat) :
    Memory.read (m ++ m') a = (Memory.read m a).or (Memory.read m' a) := by
  induction m with
  | nil => simp [Memory.read_nil]
  | cons c m ih =>
    obtain ⟨k, b⟩ := c
    rw [List.cons_append, Memory.read_cons, Memory.read_cons]
    split
    · simp
    · exact ih

/-- A filter on addresses hides the cells it drops and keeps the others. -/
theorem Memory.read_filter (q : Nat → Bool) (m : Memory) (a : Nat) :
    Memory.read (m.filter fun c => q c.1) a = if q a then Memory.read m a else none := by
  induction m with
  | nil => simp [Memory.read_nil]
  | cons c m ih =>
    obtain ⟨k, b⟩ := c
    rw [List.filter_cons]
    by_cases hk : a = k
    · subst hk
      cases hq : q a <;> simp_all [Memory.read_cons]
    · cases hq : q k <;> simp [Memory.read_cons, hk, ih]

theorem Memory.read_cells (s : List Byte) (a i : Nat) :
    Memory.read (Memory.cells a s) i = if a ≤ i then s[i - a]? else none := by
  induction s generalizing a with
  | nil => simp [Memory.cells, Memory.read_nil]
  | cons b s ih =>
    rw [Memory.cells, Memory.read_cons, ih]
    rcases Nat.lt_trichotomy i a with h | rfl | h
    · rw [if_neg (by omega), if_neg (by omega), if_neg (by omega)]
    · simp
    · obtain ⟨d, rfl⟩ : ∃ d, i = a + 1 + d := ⟨i - (a + 1), by omega⟩
      rw [if_neg (by omega), if_pos (by omega), if_pos (by omega)]
      have h1 : a + 1 + d - a = d + 1 := by omega
      have h2 : a + 1 + d - (a + 1) = d := by omega
      rw [h1, h2, List.getElem?_cons_succ]

/-- Reading after a write (10_state.md R46, R47): the written bytes inside `[a, a + len(s))`, the old cells outside. -/
theorem Memory.read_write (m : Memory) (a : Nat) (s : List Byte) (i : Nat) :
    (m.write a s).read i = if a ≤ i ∧ i < a + s.length then s[i - a]? else m.read i := by
  have hlow := Memory.read_filter (fun k => decide (k < a)) m i
  have hhigh := Memory.read_filter (fun k => decide (a + s.length ≤ k)) m i
  simp only [decide_eq_true_eq] at hlow hhigh
  unfold Memory.write
  rw [Memory.read_append, Memory.read_append, hlow, hhigh, Memory.read_cells]
  by_cases h1 : i < a
  · rw [if_pos h1, if_neg (by omega), if_neg (by omega), if_neg (by omega)]; simp
  · by_cases h2 : i < a + s.length
    · have : s[i - a]? = some (s[i - a]'(by omega)) := List.getElem?_eq_getElem _
      rw [if_neg h1, if_pos (by omega), if_neg (by omega), if_pos (by omega), this]; simp
    · have : s[i - a]? = none := List.getElem?_eq_none (by omega)
      rw [if_neg h1, if_pos (by omega), if_pos (by omega), if_neg (by omega), this]; simp

theorem Memory.mem_cells (s : List Byte) (a : Nat) (c : Host.Cell) (h : c ∈ Memory.cells a s) :
    a ≤ c.1 ∧ c.1 < a + s.length := by
  induction s generalizing a with
  | nil => simp [Memory.cells] at h
  | cons b s ih =>
    rcases List.mem_cons.1 h with rfl | h
    · simp
    · have := ih (a + 1) h
      simp only [List.length_cons]
      omega

theorem Memory.wf_cells (s : List Byte) (a : Nat) : Memory.wf (Memory.cells a s) := by
  induction s generalizing a with
  | nil => exact List.Pairwise.nil
  | cons b s ih =>
    refine List.Pairwise.cons (fun c h => ?_) (ih (a + 1))
    have := Memory.mem_cells s (a + 1) c h
    show a < c.1
    omega

/-- A write keeps the canonical form. -/
theorem Memory.wf_write (m : Memory) (a : Nat) (s : List Byte) (h : m.wf) : (m.write a s).wf := by
  refine List.pairwise_append.2 ⟨h.filter _, List.pairwise_append.2 ⟨Memory.wf_cells s a, h.filter _, ?_⟩, ?_⟩
  · intro x hx y hy
    have h1 := Memory.mem_cells s a x hx
    have h2 := (List.mem_filter.1 hy).2
    simp only [decide_eq_true_eq] at h2
    omega
  · intro x hx y hy
    have h1 := (List.mem_filter.1 hx).2
    simp only [decide_eq_true_eq] at h1
    rcases List.mem_append.1 hy with hy | hy
    · have := Memory.mem_cells s a y hy
      omega
    · have h2 := (List.mem_filter.1 hy).2
      simp only [decide_eq_true_eq] at h2
      omega

/-- A write below `n` keeps every cell below `n`. -/
theorem Memory.below_write (m : Memory) (a : Nat) (s : List Byte) (n : Nat) (h : m.below n) (hs : a + s.length ≤ n) :
    (m.write a s).below n := by
  intro c hc
  rcases List.mem_append.1 hc with hc | hc
  · exact h c (List.mem_filter.1 hc).1
  · rcases List.mem_append.1 hc with hc | hc
    · have := Memory.mem_cells s a c hc
      omega
    · exact h c (List.mem_filter.1 hc).1

/-- Two canonical buffers whose cells read alike are the same data. -/
theorem Memory.ext_of_wf (m m' : Memory) (h : m.wf) (h' : m'.wf) (hr : ∀ a, m.read a = m'.read a) : m = m' := by
  induction m generalizing m' with
  | nil =>
    cases m' with
    | nil => rfl
    | cons c m' =>
      have := hr c.1
      rw [show c = (c.1, c.2) from rfl, Memory.read_cons] at this
      simp [Memory.read_nil] at this
  | cons c m ih =>
    have none_below : ∀ (r : Memory) (k : Nat), (∀ d ∈ r, k < d.1) → ∀ a, a ≤ k → r.read a = none := by
      intro r k hk a ha
      induction r with
      | nil => rfl
      | cons d r ihr =>
        have hd := hk d List.mem_cons_self
        rw [show d = (d.1, d.2) from rfl, Memory.read_cons, if_neg (by omega)]
        exact ihr fun e he => hk e (List.mem_cons_of_mem _ he)
    cases m' with
    | nil =>
      have := hr c.1
      rw [show c = (c.1, c.2) from rfl, Memory.read_cons] at this
      simp [Memory.read_nil] at this
    | cons c' m' =>
      obtain ⟨k, b⟩ := c
      obtain ⟨k', b'⟩ := c'
      rw [Memory.wf, List.pairwise_cons] at h h'
      have e1 := hr k
      have e2 := hr k'
      simp only [Memory.read_cons, if_true] at e1 e2
      have hkk : k = k' := by
        rcases Nat.lt_trichotomy k k' with hlt | heq | hlt
        · rw [if_neg (by omega), none_below m' k' h'.1 k (by omega)] at e1
          cases e1
        · exact heq
        · rw [if_neg (by omega), none_below m k h.1 k' (by omega)] at e2
          cases e2
      subst hkk
      rw [if_pos rfl, Option.some.injEq] at e1
      subst e1
      congr 1
      refine ih m' h.2 h'.2 fun a => ?_
      have := hr a
      rw [Memory.read_cons, Memory.read_cons] at this
      by_cases ha : a = k
      · rw [none_below m k h.1 a (by omega), none_below m' k h'.1 a (by omega)]
      · rwa [if_neg ha, if_neg ha] at this

/-- The buffers of the state after reset are canonical: they list nothing. -/
theorem State.reset_wf : State.reset.ibuf.wf ∧ State.reset.obuf.wf := ⟨List.Pairwise.nil, List.Pairwise.nil⟩

end Sys2Proof.Machine
end

