-- ==== Sys2Proof/Laws/State.lean ====
section
/-! SUPPORT. What each one-field operation of Ops.lean leaves in each field of State. -/

namespace Sys2Proof.Machine

variable (s : State)

/-! ### setStatus -/

@[simp] theorem State.setStatus_params (st : Status) : (s.setStatus st).params = s.params := rfl
@[simp] theorem State.setStatus_cmd (st : Status) : (s.setStatus st).cmd = s.cmd := rfl
@[simp] theorem State.setStatus_status (st : Status) : (s.setStatus st).status = st := rfl
@[simp] theorem State.setStatus_ctrl (st : Status) : (s.setStatus st).ctrl = s.ctrl := rfl
@[simp] theorem State.setStatus_bodyLen (st : Status) : (s.setStatus st).bodyLen = s.bodyLen := rfl
@[simp] theorem State.setStatus_encType (st : Status) : (s.setStatus st).encType = s.encType := rfl
@[simp] theorem State.setStatus_subpkg (st : Status) : (s.setStatus st).subpkg = s.subpkg := rfl
@[simp] theorem State.setStatus_rsvd (st : Status) : (s.setStatus st).rsvd = s.rsvd := rfl
@[simp] theorem State.setStatus_msgType (st : Status) : (s.setStatus st).msgType = s.msgType := rfl
@[simp] theorem State.setStatus_bodyProps (st : Status) : (s.setStatus st).bodyProps = s.bodyProps := rfl
@[simp] theorem State.setStatus_flowId (st : Status) : (s.setStatus st).flowId = s.flowId := rfl
@[simp] theorem State.setStatus_phoneHi (st : Status) : (s.setStatus st).phoneHi = s.phoneHi := rfl
@[simp] theorem State.setStatus_phoneLo (st : Status) : (s.setStatus st).phoneLo = s.phoneLo := rfl
@[simp] theorem State.setStatus_inLen (st : Status) : (s.setStatus st).inLen = s.inLen := rfl
@[simp] theorem State.setStatus_start (st : Status) : (s.setStatus st).start = s.start := rfl
@[simp] theorem State.setStatus_endIdx (st : Status) : (s.setStatus st).endIdx = s.endIdx := rfl
@[simp] theorem State.setStatus_result (st : Status) : (s.setStatus st).result = s.result := rfl
@[simp] theorem State.setStatus_outLen (st : Status) : (s.setStatus st).outLen = s.outLen := rfl
@[simp] theorem State.setStatus_ibuf (st : Status) : (s.setStatus st).ibuf = s.ibuf := rfl
@[simp] theorem State.setStatus_obuf (st : Status) : (s.setStatus st).obuf = s.obuf := rfl
@[simp] theorem State.setStatus_events (st : Status) : (s.setStatus st).events = s.events := rfl
@[simp] theorem State.setStatus_faults (st : Status) : (s.setStatus st).faults = s.faults := rfl
@[simp] theorem State.setStatus_hazarded (st : Status) : (s.setStatus st).hazarded = s.hazarded := rfl
@[simp] theorem State.setStatus_draws (st : Status) : (s.setStatus st).draws = s.draws := rfl
@[simp] theorem State.setStatus_replies (st : Status) : (s.setStatus st).replies = s.replies := rfl
@[simp] theorem State.setStatus_host (st : Status) : (s.setStatus st).host = s.host := rfl
@[simp] theorem State.setStatus_turns (st : Status) : (s.setStatus st).turns = s.turns := rfl

/-! ### setCmd -/

@[simp] theorem State.setCmd_params (w : Word) : (s.setCmd w).params = s.params := rfl
@[simp] theorem State.setCmd_cmd (w : Word) : (s.setCmd w).cmd = w := rfl
@[simp] theorem State.setCmd_status (w : Word) : (s.setCmd w).status = s.status := rfl
@[simp] theorem State.setCmd_ctrl (w : Word) : (s.setCmd w).ctrl = s.ctrl := rfl
@[simp] theorem State.setCmd_bodyLen (w : Word) : (s.setCmd w).bodyLen = s.bodyLen := rfl
@[simp] theorem State.setCmd_encType (w : Word) : (s.setCmd w).encType = s.encType := rfl
@[simp] theorem State.setCmd_subpkg (w : Word) : (s.setCmd w).subpkg = s.subpkg := rfl
@[simp] theorem State.setCmd_rsvd (w : Word) : (s.setCmd w).rsvd = s.rsvd := rfl
@[simp] theorem State.setCmd_msgType (w : Word) : (s.setCmd w).msgType = s.msgType := rfl
@[simp] theorem State.setCmd_bodyProps (w : Word) : (s.setCmd w).bodyProps = s.bodyProps := rfl
@[simp] theorem State.setCmd_flowId (w : Word) : (s.setCmd w).flowId = s.flowId := rfl
@[simp] theorem State.setCmd_phoneHi (w : Word) : (s.setCmd w).phoneHi = s.phoneHi := rfl
@[simp] theorem State.setCmd_phoneLo (w : Word) : (s.setCmd w).phoneLo = s.phoneLo := rfl
@[simp] theorem State.setCmd_inLen (w : Word) : (s.setCmd w).inLen = s.inLen := rfl
@[simp] theorem State.setCmd_start (w : Word) : (s.setCmd w).start = s.start := rfl
@[simp] theorem State.setCmd_endIdx (w : Word) : (s.setCmd w).endIdx = s.endIdx := rfl
@[simp] theorem State.setCmd_result (w : Word) : (s.setCmd w).result = s.result := rfl
@[simp] theorem State.setCmd_outLen (w : Word) : (s.setCmd w).outLen = s.outLen := rfl
@[simp] theorem State.setCmd_ibuf (w : Word) : (s.setCmd w).ibuf = s.ibuf := rfl
@[simp] theorem State.setCmd_obuf (w : Word) : (s.setCmd w).obuf = s.obuf := rfl
@[simp] theorem State.setCmd_events (w : Word) : (s.setCmd w).events = s.events := rfl
@[simp] theorem State.setCmd_faults (w : Word) : (s.setCmd w).faults = s.faults := rfl
@[simp] theorem State.setCmd_hazarded (w : Word) : (s.setCmd w).hazarded = s.hazarded := rfl
@[simp] theorem State.setCmd_draws (w : Word) : (s.setCmd w).draws = s.draws := rfl
@[simp] theorem State.setCmd_replies (w : Word) : (s.setCmd w).replies = s.replies := rfl
@[simp] theorem State.setCmd_host (w : Word) : (s.setCmd w).host = s.host := rfl
@[simp] theorem State.setCmd_turns (w : Word) : (s.setCmd w).turns = s.turns := rfl

/-! ### setResult -/

@[simp] theorem State.setResult_params (v : BitVec 24) : (s.setResult v).params = s.params := rfl
@[simp] theorem State.setResult_cmd (v : BitVec 24) : (s.setResult v).cmd = s.cmd := rfl
@[simp] theorem State.setResult_status (v : BitVec 24) : (s.setResult v).status = s.status := rfl
@[simp] theorem State.setResult_ctrl (v : BitVec 24) : (s.setResult v).ctrl = s.ctrl := rfl
@[simp] theorem State.setResult_bodyLen (v : BitVec 24) : (s.setResult v).bodyLen = s.bodyLen := rfl
@[simp] theorem State.setResult_encType (v : BitVec 24) : (s.setResult v).encType = s.encType := rfl
@[simp] theorem State.setResult_subpkg (v : BitVec 24) : (s.setResult v).subpkg = s.subpkg := rfl
@[simp] theorem State.setResult_rsvd (v : BitVec 24) : (s.setResult v).rsvd = s.rsvd := rfl
@[simp] theorem State.setResult_msgType (v : BitVec 24) : (s.setResult v).msgType = s.msgType := rfl
@[simp] theorem State.setResult_bodyProps (v : BitVec 24) : (s.setResult v).bodyProps = s.bodyProps := rfl
@[simp] theorem State.setResult_flowId (v : BitVec 24) : (s.setResult v).flowId = s.flowId := rfl
@[simp] theorem State.setResult_phoneHi (v : BitVec 24) : (s.setResult v).phoneHi = s.phoneHi := rfl
@[simp] theorem State.setResult_phoneLo (v : BitVec 24) : (s.setResult v).phoneLo = s.phoneLo := rfl
@[simp] theorem State.setResult_inLen (v : BitVec 24) : (s.setResult v).inLen = s.inLen := rfl
@[simp] theorem State.setResult_start (v : BitVec 24) : (s.setResult v).start = s.start := rfl
@[simp] theorem State.setResult_endIdx (v : BitVec 24) : (s.setResult v).endIdx = s.endIdx := rfl
@[simp] theorem State.setResult_result (v : BitVec 24) : (s.setResult v).result = v := rfl
@[simp] theorem State.setResult_outLen (v : BitVec 24) : (s.setResult v).outLen = s.outLen := rfl
@[simp] theorem State.setResult_ibuf (v : BitVec 24) : (s.setResult v).ibuf = s.ibuf := rfl
@[simp] theorem State.setResult_obuf (v : BitVec 24) : (s.setResult v).obuf = s.obuf := rfl
@[simp] theorem State.setResult_events (v : BitVec 24) : (s.setResult v).events = s.events := rfl
@[simp] theorem State.setResult_faults (v : BitVec 24) : (s.setResult v).faults = s.faults := rfl
@[simp] theorem State.setResult_hazarded (v : BitVec 24) : (s.setResult v).hazarded = s.hazarded := rfl
@[simp] theorem State.setResult_draws (v : BitVec 24) : (s.setResult v).draws = s.draws := rfl
@[simp] theorem State.setResult_replies (v : BitVec 24) : (s.setResult v).replies = s.replies := rfl
@[simp] theorem State.setResult_host (v : BitVec 24) : (s.setResult v).host = s.host := rfl
@[simp] theorem State.setResult_turns (v : BitVec 24) : (s.setResult v).turns = s.turns := rfl

/-! ### setOutput -/

@[simp] theorem State.setOutput_params (out : List Byte) : (s.setOutput out).params = s.params := rfl
@[simp] theorem State.setOutput_cmd (out : List Byte) : (s.setOutput out).cmd = s.cmd := rfl
@[simp] theorem State.setOutput_status (out : List Byte) : (s.setOutput out).status = s.status := rfl
@[simp] theorem State.setOutput_ctrl (out : List Byte) : (s.setOutput out).ctrl = s.ctrl := rfl
@[simp] theorem State.setOutput_bodyLen (out : List Byte) : (s.setOutput out).bodyLen = s.bodyLen := rfl
@[simp] theorem State.setOutput_encType (out : List Byte) : (s.setOutput out).encType = s.encType := rfl
@[simp] theorem State.setOutput_subpkg (out : List Byte) : (s.setOutput out).subpkg = s.subpkg := rfl
@[simp] theorem State.setOutput_rsvd (out : List Byte) : (s.setOutput out).rsvd = s.rsvd := rfl
@[simp] theorem State.setOutput_msgType (out : List Byte) : (s.setOutput out).msgType = s.msgType := rfl
@[simp] theorem State.setOutput_bodyProps (out : List Byte) : (s.setOutput out).bodyProps = s.bodyProps := rfl
@[simp] theorem State.setOutput_flowId (out : List Byte) : (s.setOutput out).flowId = s.flowId := rfl
@[simp] theorem State.setOutput_phoneHi (out : List Byte) : (s.setOutput out).phoneHi = s.phoneHi := rfl
@[simp] theorem State.setOutput_phoneLo (out : List Byte) : (s.setOutput out).phoneLo = s.phoneLo := rfl
@[simp] theorem State.setOutput_inLen (out : List Byte) : (s.setOutput out).inLen = s.inLen := rfl
@[simp] theorem State.setOutput_start (out : List Byte) : (s.setOutput out).start = s.start := rfl
@[simp] theorem State.setOutput_endIdx (out : List Byte) : (s.setOutput out).endIdx = s.endIdx := rfl
@[simp] theorem State.setOutput_result (out : List Byte) : (s.setOutput out).result = s.result := rfl
@[simp] theorem State.setOutput_outLen (out : List Byte) : (s.setOutput out).outLen = BitVec.ofNat 32 out.length := rfl
@[simp] theorem State.setOutput_ibuf (out : List Byte) : (s.setOutput out).ibuf = s.ibuf := rfl
@[simp] theorem State.setOutput_obuf (out : List Byte) : (s.setOutput out).obuf = s.obuf.write 0 out := rfl
@[simp] theorem State.setOutput_events (out : List Byte) : (s.setOutput out).events = s.events := rfl
@[simp] theorem State.setOutput_faults (out : List Byte) : (s.setOutput out).faults = s.faults := rfl
@[simp] theorem State.setOutput_hazarded (out : List Byte) : (s.setOutput out).hazarded = s.hazarded := rfl
@[simp] theorem State.setOutput_draws (out : List Byte) : (s.setOutput out).draws = s.draws := rfl
@[simp] theorem State.setOutput_replies (out : List Byte) : (s.setOutput out).replies = s.replies := rfl
@[simp] theorem State.setOutput_host (out : List Byte) : (s.setOutput out).host = s.host := rfl
@[simp] theorem State.setOutput_turns (out : List Byte) : (s.setOutput out).turns = s.turns := rfl

/-! ### setIbuf -/

@[simp] theorem State.setIbuf_params (i : Nat) (b : Byte) : (s.setIbuf i b).params = s.params := rfl
@[simp] theorem State.setIbuf_cmd (i : Nat) (b : Byte) : (s.setIbuf i b).cmd = s.cmd := rfl
@[simp] theorem State.setIbuf_status (i : Nat) (b : Byte) : (s.setIbuf i b).status = s.status := rfl
@[simp] theorem State.setIbuf_ctrl (i : Nat) (b : Byte) : (s.setIbuf i b).ctrl = s.ctrl := rfl
@[simp] theorem State.setIbuf_bodyLen (i : Nat) (b : Byte) : (s.setIbuf i b).bodyLen = s.bodyLen := rfl
@[simp] theorem State.setIbuf_encType (i : Nat) (b : Byte) : (s.setIbuf i b).encType = s.encType := rfl
@[simp] theorem State.setIbuf_subpkg (i : Nat) (b : Byte) : (s.setIbuf i b).subpkg = s.subpkg := rfl
@[simp] theorem State.setIbuf_rsvd (i : Nat) (b : Byte) : (s.setIbuf i b).rsvd = s.rsvd := rfl
@[simp] theorem State.setIbuf_msgType (i : Nat) (b : Byte) : (s.setIbuf i b).msgType = s.msgType := rfl
@[simp] theorem State.setIbuf_bodyProps (i : Nat) (b : Byte) : (s.setIbuf i b).bodyProps = s.bodyProps := rfl
@[simp] theorem State.setIbuf_flowId (i : Nat) (b : Byte) : (s.setIbuf i b).flowId = s.flowId := rfl
@[simp] theorem State.setIbuf_phoneHi (i : Nat) (b : Byte) : (s.setIbuf i b).phoneHi = s.phoneHi := rfl
@[simp] theorem State.setIbuf_phoneLo (i : Nat) (b : Byte) : (s.setIbuf i b).phoneLo = s.phoneLo := rfl
@[simp] theorem State.setIbuf_inLen (i : Nat) (b : Byte) : (s.setIbuf i b).inLen = s.inLen := rfl
@[simp] theorem State.setIbuf_start (i : Nat) (b : Byte) : (s.setIbuf i b).start = s.start := rfl
@[simp] theorem State.setIbuf_endIdx (i : Nat) (b : Byte) : (s.setIbuf i b).endIdx = s.endIdx := rfl
@[simp] theorem State.setIbuf_result (i : Nat) (b : Byte) : (s.setIbuf i b).result = s.result := rfl
@[simp] theorem State.setIbuf_outLen (i : Nat) (b : Byte) : (s.setIbuf i b).outLen = s.outLen := rfl
@[simp] theorem State.setIbuf_ibuf (i : Nat) (b : Byte) : (s.setIbuf i b).ibuf = s.ibuf.write i [b] := rfl
@[simp] theorem State.setIbuf_obuf (i : Nat) (b : Byte) : (s.setIbuf i b).obuf = s.obuf := rfl
@[simp] theorem State.setIbuf_events (i : Nat) (b : Byte) : (s.setIbuf i b).events = s.events := rfl
@[simp] theorem State.setIbuf_faults (i : Nat) (b : Byte) : (s.setIbuf i b).faults = s.faults := rfl
@[simp] theorem State.setIbuf_hazarded (i : Nat) (b : Byte) : (s.setIbuf i b).hazarded = s.hazarded := rfl
@[simp] theorem State.setIbuf_draws (i : Nat) (b : Byte) : (s.setIbuf i b).draws = s.draws := rfl
@[simp] theorem State.setIbuf_replies (i : Nat) (b : Byte) : (s.setIbuf i b).replies = s.replies := rfl
@[simp] theorem State.setIbuf_host (i : Nat) (b : Byte) : (s.setIbuf i b).host = s.host := rfl
@[simp] theorem State.setIbuf_turns (i : Nat) (b : Byte) : (s.setIbuf i b).turns = s.turns := rfl

/-! ### emit -/

@[simp] theorem State.emit_params (e : Event) : (s.emit e).params = s.params := rfl
@[simp] theorem State.emit_cmd (e : Event) : (s.emit e).cmd = s.cmd := rfl
@[simp] theorem State.emit_status (e : Event) : (s.emit e).status = s.status := rfl
@[simp] theorem State.emit_ctrl (e : Event) : (s.emit e).ctrl = s.ctrl := rfl
@[simp] theorem State.emit_bodyLen (e : Event) : (s.emit e).bodyLen = s.bodyLen := rfl
@[simp] theorem State.emit_encType (e : Event) : (s.emit e).encType = s.encType := rfl
@[simp] theorem State.emit_subpkg (e : Event) : (s.emit e).subpkg = s.subpkg := rfl
@[simp] theorem State.emit_rsvd (e : Event) : (s.emit e).rsvd = s.rsvd := rfl
@[simp] theorem State.emit_msgType (e : Event) : (s.emit e).msgType = s.msgType := rfl
@[simp] theorem State.emit_bodyProps (e : Event) : (s.emit e).bodyProps = s.bodyProps := rfl
@[simp] theorem State.emit_flowId (e : Event) : (s.emit e).flowId = s.flowId := rfl
@[simp] theorem State.emit_phoneHi (e : Event) : (s.emit e).phoneHi = s.phoneHi := rfl
@[simp] theorem State.emit_phoneLo (e : Event) : (s.emit e).phoneLo = s.phoneLo := rfl
@[simp] theorem State.emit_inLen (e : Event) : (s.emit e).inLen = s.inLen := rfl
@[simp] theorem State.emit_start (e : Event) : (s.emit e).start = s.start := rfl
@[simp] theorem State.emit_endIdx (e : Event) : (s.emit e).endIdx = s.endIdx := rfl
@[simp] theorem State.emit_result (e : Event) : (s.emit e).result = s.result := rfl
@[simp] theorem State.emit_outLen (e : Event) : (s.emit e).outLen = s.outLen := rfl
@[simp] theorem State.emit_ibuf (e : Event) : (s.emit e).ibuf = s.ibuf := rfl
@[simp] theorem State.emit_obuf (e : Event) : (s.emit e).obuf = s.obuf := rfl
@[simp] theorem State.emit_events (e : Event) : (s.emit e).events = s.events ++ [e] := rfl
@[simp] theorem State.emit_faults (e : Event) : (s.emit e).faults = s.faults := rfl
@[simp] theorem State.emit_hazarded (e : Event) : (s.emit e).hazarded = s.hazarded := rfl
@[simp] theorem State.emit_draws (e : Event) : (s.emit e).draws = s.draws := rfl
@[simp] theorem State.emit_replies (e : Event) : (s.emit e).replies = s.replies := rfl
@[simp] theorem State.emit_host (e : Event) : (s.emit e).host = s.host := rfl
@[simp] theorem State.emit_turns (e : Event) : (s.emit e).turns = s.turns := rfl

/-! ### recordBusFault -/

@[simp] theorem State.recordBusFault_params : (s.recordBusFault).params = s.params := rfl
@[simp] theorem State.recordBusFault_cmd : (s.recordBusFault).cmd = s.cmd := rfl
@[simp] theorem State.recordBusFault_status : (s.recordBusFault).status = s.status := rfl
@[simp] theorem State.recordBusFault_ctrl : (s.recordBusFault).ctrl = s.ctrl := rfl
@[simp] theorem State.recordBusFault_bodyLen : (s.recordBusFault).bodyLen = s.bodyLen := rfl
@[simp] theorem State.recordBusFault_encType : (s.recordBusFault).encType = s.encType := rfl
@[simp] theorem State.recordBusFault_subpkg : (s.recordBusFault).subpkg = s.subpkg := rfl
@[simp] theorem State.recordBusFault_rsvd : (s.recordBusFault).rsvd = s.rsvd := rfl
@[simp] theorem State.recordBusFault_msgType : (s.recordBusFault).msgType = s.msgType := rfl
@[simp] theorem State.recordBusFault_bodyProps : (s.recordBusFault).bodyProps = s.bodyProps := rfl
@[simp] theorem State.recordBusFault_flowId : (s.recordBusFault).flowId = s.flowId := rfl
@[simp] theorem State.recordBusFault_phoneHi : (s.recordBusFault).phoneHi = s.phoneHi := rfl
@[simp] theorem State.recordBusFault_phoneLo : (s.recordBusFault).phoneLo = s.phoneLo := rfl
@[simp] theorem State.recordBusFault_inLen : (s.recordBusFault).inLen = s.inLen := rfl
@[simp] theorem State.recordBusFault_start : (s.recordBusFault).start = s.start := rfl
@[simp] theorem State.recordBusFault_endIdx : (s.recordBusFault).endIdx = s.endIdx := rfl
@[simp] theorem State.recordBusFault_result : (s.recordBusFault).result = s.result := rfl
@[simp] theorem State.recordBusFault_outLen : (s.recordBusFault).outLen = s.outLen := rfl
@[simp] theorem State.recordBusFault_ibuf : (s.recordBusFault).ibuf = s.ibuf := rfl
@[simp] theorem State.recordBusFault_obuf : (s.recordBusFault).obuf = s.obuf := rfl
@[simp] theorem State.recordBusFault_events : (s.recordBusFault).events = s.events := rfl
@[simp] theorem State.recordBusFault_faults : (s.recordBusFault).faults = { s.faults with busFault := true } := rfl
@[simp] theorem State.recordBusFault_hazarded : (s.recordBusFault).hazarded = s.hazarded := rfl
@[simp] theorem State.recordBusFault_draws : (s.recordBusFault).draws = s.draws := rfl
@[simp] theorem State.recordBusFault_replies : (s.recordBusFault).replies = s.replies := rfl
@[simp] theorem State.recordBusFault_host : (s.recordBusFault).host = s.host := rfl
@[simp] theorem State.recordBusFault_turns : (s.recordBusFault).turns = s.turns := rfl

/-! ### recordUninitRead -/

@[simp] theorem State.recordUninitRead_params : (s.recordUninitRead).params = s.params := rfl
@[simp] theorem State.recordUninitRead_cmd : (s.recordUninitRead).cmd = s.cmd := rfl
@[simp] theorem State.recordUninitRead_status : (s.recordUninitRead).status = s.status := rfl
@[simp] theorem State.recordUninitRead_ctrl : (s.recordUninitRead).ctrl = s.ctrl := rfl
@[simp] theorem State.recordUninitRead_bodyLen : (s.recordUninitRead).bodyLen = s.bodyLen := rfl
@[simp] theorem State.recordUninitRead_encType : (s.recordUninitRead).encType = s.encType := rfl
@[simp] theorem State.recordUninitRead_subpkg : (s.recordUninitRead).subpkg = s.subpkg := rfl
@[simp] theorem State.recordUninitRead_rsvd : (s.recordUninitRead).rsvd = s.rsvd := rfl
@[simp] theorem State.recordUninitRead_msgType : (s.recordUninitRead).msgType = s.msgType := rfl
@[simp] theorem State.recordUninitRead_bodyProps : (s.recordUninitRead).bodyProps = s.bodyProps := rfl
@[simp] theorem State.recordUninitRead_flowId : (s.recordUninitRead).flowId = s.flowId := rfl
@[simp] theorem State.recordUninitRead_phoneHi : (s.recordUninitRead).phoneHi = s.phoneHi := rfl
@[simp] theorem State.recordUninitRead_phoneLo : (s.recordUninitRead).phoneLo = s.phoneLo := rfl
@[simp] theorem State.recordUninitRead_inLen : (s.recordUninitRead).inLen = s.inLen := rfl
@[simp] theorem State.recordUninitRead_start : (s.recordUninitRead).start = s.start := rfl
@[simp] theorem State.recordUninitRead_endIdx : (s.recordUninitRead).endIdx = s.endIdx := rfl
@[simp] theorem State.recordUninitRead_result : (s.recordUninitRead).result = s.result := rfl
@[simp] theorem State.recordUninitRead_outLen : (s.recordUninitRead).outLen = s.outLen := rfl
@[simp] theorem State.recordUninitRead_ibuf : (s.recordUninitRead).ibuf = s.ibuf := rfl
@[simp] theorem State.recordUninitRead_obuf : (s.recordUninitRead).obuf = s.obuf := rfl
@[simp] theorem State.recordUninitRead_events : (s.recordUninitRead).events = s.events := rfl
@[simp] theorem State.recordUninitRead_faults : (s.recordUninitRead).faults = { s.faults with uninitRead := true } := rfl
@[simp] theorem State.recordUninitRead_hazarded : (s.recordUninitRead).hazarded = s.hazarded := rfl
@[simp] theorem State.recordUninitRead_draws : (s.recordUninitRead).draws = s.draws := rfl
@[simp] theorem State.recordUninitRead_replies : (s.recordUninitRead).replies = s.replies := rfl
@[simp] theorem State.recordUninitRead_host : (s.recordUninitRead).host = s.host := rfl
@[simp] theorem State.recordUninitRead_turns : (s.recordUninitRead).turns = s.turns := rfl

/-! ### recordHostHazard -/

@[simp] theorem State.recordHostHazard_params : (s.recordHostHazard).params = s.params := rfl
@[simp] theorem State.recordHostHazard_cmd : (s.recordHostHazard).cmd = s.cmd := rfl
@[simp] theorem State.recordHostHazard_status : (s.recordHostHazard).status = s.status := rfl
@[simp] theorem State.recordHostHazard_ctrl : (s.recordHostHazard).ctrl = s.ctrl := rfl
@[simp] theorem State.recordHostHazard_bodyLen : (s.recordHostHazard).bodyLen = s.bodyLen := rfl
@[simp] theorem State.recordHostHazard_encType : (s.recordHostHazard).encType = s.encType := rfl
@[simp] theorem State.recordHostHazard_subpkg : (s.recordHostHazard).subpkg = s.subpkg := rfl
@[simp] theorem State.recordHostHazard_rsvd : (s.recordHostHazard).rsvd = s.rsvd := rfl
@[simp] theorem State.recordHostHazard_msgType : (s.recordHostHazard).msgType = s.msgType := rfl
@[simp] theorem State.recordHostHazard_bodyProps : (s.recordHostHazard).bodyProps = s.bodyProps := rfl
@[simp] theorem State.recordHostHazard_flowId : (s.recordHostHazard).flowId = s.flowId := rfl
@[simp] theorem State.recordHostHazard_phoneHi : (s.recordHostHazard).phoneHi = s.phoneHi := rfl
@[simp] theorem State.recordHostHazard_phoneLo : (s.recordHostHazard).phoneLo = s.phoneLo := rfl
@[simp] theorem State.recordHostHazard_inLen : (s.recordHostHazard).inLen = s.inLen := rfl
@[simp] theorem State.recordHostHazard_start : (s.recordHostHazard).start = s.start := rfl
@[simp] theorem State.recordHostHazard_endIdx : (s.recordHostHazard).endIdx = s.endIdx := rfl
@[simp] theorem State.recordHostHazard_result : (s.recordHostHazard).result = s.result := rfl
@[simp] theorem State.recordHostHazard_outLen : (s.recordHostHazard).outLen = s.outLen := rfl
@[simp] theorem State.recordHostHazard_ibuf : (s.recordHostHazard).ibuf = s.ibuf := rfl
@[simp] theorem State.recordHostHazard_obuf : (s.recordHostHazard).obuf = s.obuf := rfl
@[simp] theorem State.recordHostHazard_events : (s.recordHostHazard).events = s.events := rfl
@[simp] theorem State.recordHostHazard_faults : (s.recordHostHazard).faults = { s.faults with hostHazard := true } := rfl
@[simp] theorem State.recordHostHazard_hazarded : (s.recordHostHazard).hazarded = true := rfl
@[simp] theorem State.recordHostHazard_draws : (s.recordHostHazard).draws = s.draws := rfl
@[simp] theorem State.recordHostHazard_replies : (s.recordHostHazard).replies = s.replies := rfl
@[simp] theorem State.recordHostHazard_host : (s.recordHostHazard).host = s.host := rfl
@[simp] theorem State.recordHostHazard_turns : (s.recordHostHazard).turns = s.turns := rfl

/-! ### draw -/

@[simp] theorem State.draw_params : (s.draw).params = s.params := rfl
@[simp] theorem State.draw_cmd : (s.draw).cmd = s.cmd := rfl
@[simp] theorem State.draw_status : (s.draw).status = s.status := rfl
@[simp] theorem State.draw_ctrl : (s.draw).ctrl = s.ctrl := rfl
@[simp] theorem State.draw_bodyLen : (s.draw).bodyLen = s.bodyLen := rfl
@[simp] theorem State.draw_encType : (s.draw).encType = s.encType := rfl
@[simp] theorem State.draw_subpkg : (s.draw).subpkg = s.subpkg := rfl
@[simp] theorem State.draw_rsvd : (s.draw).rsvd = s.rsvd := rfl
@[simp] theorem State.draw_msgType : (s.draw).msgType = s.msgType := rfl
@[simp] theorem State.draw_bodyProps : (s.draw).bodyProps = s.bodyProps := rfl
@[simp] theorem State.draw_flowId : (s.draw).flowId = s.flowId := rfl
@[simp] theorem State.draw_phoneHi : (s.draw).phoneHi = s.phoneHi := rfl
@[simp] theorem State.draw_phoneLo : (s.draw).phoneLo = s.phoneLo := rfl
@[simp] theorem State.draw_inLen : (s.draw).inLen = s.inLen := rfl
@[simp] theorem State.draw_start : (s.draw).start = s.start := rfl
@[simp] theorem State.draw_endIdx : (s.draw).endIdx = s.endIdx := rfl
@[simp] theorem State.draw_result : (s.draw).result = s.result := rfl
@[simp] theorem State.draw_outLen : (s.draw).outLen = s.outLen := rfl
@[simp] theorem State.draw_ibuf : (s.draw).ibuf = s.ibuf := rfl
@[simp] theorem State.draw_obuf : (s.draw).obuf = s.obuf := rfl
@[simp] theorem State.draw_events : (s.draw).events = s.events := rfl
@[simp] theorem State.draw_faults : (s.draw).faults = s.faults := rfl
@[simp] theorem State.draw_hazarded : (s.draw).hazarded = s.hazarded := rfl
@[simp] theorem State.draw_draws : (s.draw).draws = s.draws + 1 := rfl
@[simp] theorem State.draw_replies : (s.draw).replies = s.replies := rfl
@[simp] theorem State.draw_host : (s.draw).host = s.host := rfl
@[simp] theorem State.draw_turns : (s.draw).turns = s.turns := rfl

/-! ### reply -/

@[simp] theorem State.reply_params (r : Reply) : (s.reply r).params = s.params := rfl
@[simp] theorem State.reply_cmd (r : Reply) : (s.reply r).cmd = s.cmd := rfl
@[simp] theorem State.reply_status (r : Reply) : (s.reply r).status = s.status := rfl
@[simp] theorem State.reply_ctrl (r : Reply) : (s.reply r).ctrl = s.ctrl := rfl
@[simp] theorem State.reply_bodyLen (r : Reply) : (s.reply r).bodyLen = s.bodyLen := rfl
@[simp] theorem State.reply_encType (r : Reply) : (s.reply r).encType = s.encType := rfl
@[simp] theorem State.reply_subpkg (r : Reply) : (s.reply r).subpkg = s.subpkg := rfl
@[simp] theorem State.reply_rsvd (r : Reply) : (s.reply r).rsvd = s.rsvd := rfl
@[simp] theorem State.reply_msgType (r : Reply) : (s.reply r).msgType = s.msgType := rfl
@[simp] theorem State.reply_bodyProps (r : Reply) : (s.reply r).bodyProps = s.bodyProps := rfl
@[simp] theorem State.reply_flowId (r : Reply) : (s.reply r).flowId = s.flowId := rfl
@[simp] theorem State.reply_phoneHi (r : Reply) : (s.reply r).phoneHi = s.phoneHi := rfl
@[simp] theorem State.reply_phoneLo (r : Reply) : (s.reply r).phoneLo = s.phoneLo := rfl
@[simp] theorem State.reply_inLen (r : Reply) : (s.reply r).inLen = s.inLen := rfl
@[simp] theorem State.reply_start (r : Reply) : (s.reply r).start = s.start := rfl
@[simp] theorem State.reply_endIdx (r : Reply) : (s.reply r).endIdx = s.endIdx := rfl
@[simp] theorem State.reply_result (r : Reply) : (s.reply r).result = s.result := rfl
@[simp] theorem State.reply_outLen (r : Reply) : (s.reply r).outLen = s.outLen := rfl
@[simp] theorem State.reply_ibuf (r : Reply) : (s.reply r).ibuf = s.ibuf := rfl
@[simp] theorem State.reply_obuf (r : Reply) : (s.reply r).obuf = s.obuf := rfl
@[simp] theorem State.reply_events (r : Reply) : (s.reply r).events = s.events := rfl
@[simp] theorem State.reply_faults (r : Reply) : (s.reply r).faults = s.faults := rfl
@[simp] theorem State.reply_hazarded (r : Reply) : (s.reply r).hazarded = s.hazarded := rfl
@[simp] theorem State.reply_draws (r : Reply) : (s.reply r).draws = s.draws := rfl
@[simp] theorem State.reply_replies (r : Reply) : (s.reply r).replies = s.replies ++ [r] := rfl
@[simp] theorem State.reply_host (r : Reply) : (s.reply r).host = s.host := rfl
@[simp] theorem State.reply_turns (r : Reply) : (s.reply r).turns = s.turns := rfl

/-! ### setHost -/

@[simp] theorem State.setHost_params (h : List HostOp) : (s.setHost h).params = s.params := rfl
@[simp] theorem State.setHost_cmd (h : List HostOp) : (s.setHost h).cmd = s.cmd := rfl
@[simp] theorem State.setHost_status (h : List HostOp) : (s.setHost h).status = s.status := rfl
@[simp] theorem State.setHost_ctrl (h : List HostOp) : (s.setHost h).ctrl = s.ctrl := rfl
@[simp] theorem State.setHost_bodyLen (h : List HostOp) : (s.setHost h).bodyLen = s.bodyLen := rfl
@[simp] theorem State.setHost_encType (h : List HostOp) : (s.setHost h).encType = s.encType := rfl
@[simp] theorem State.setHost_subpkg (h : List HostOp) : (s.setHost h).subpkg = s.subpkg := rfl
@[simp] theorem State.setHost_rsvd (h : List HostOp) : (s.setHost h).rsvd = s.rsvd := rfl
@[simp] theorem State.setHost_msgType (h : List HostOp) : (s.setHost h).msgType = s.msgType := rfl
@[simp] theorem State.setHost_bodyProps (h : List HostOp) : (s.setHost h).bodyProps = s.bodyProps := rfl
@[simp] theorem State.setHost_flowId (h : List HostOp) : (s.setHost h).flowId = s.flowId := rfl
@[simp] theorem State.setHost_phoneHi (h : List HostOp) : (s.setHost h).phoneHi = s.phoneHi := rfl
@[simp] theorem State.setHost_phoneLo (h : List HostOp) : (s.setHost h).phoneLo = s.phoneLo := rfl
@[simp] theorem State.setHost_inLen (h : List HostOp) : (s.setHost h).inLen = s.inLen := rfl
@[simp] theorem State.setHost_start (h : List HostOp) : (s.setHost h).start = s.start := rfl
@[simp] theorem State.setHost_endIdx (h : List HostOp) : (s.setHost h).endIdx = s.endIdx := rfl
@[simp] theorem State.setHost_result (h : List HostOp) : (s.setHost h).result = s.result := rfl
@[simp] theorem State.setHost_outLen (h : List HostOp) : (s.setHost h).outLen = s.outLen := rfl
@[simp] theorem State.setHost_ibuf (h : List HostOp) : (s.setHost h).ibuf = s.ibuf := rfl
@[simp] theorem State.setHost_obuf (h : List HostOp) : (s.setHost h).obuf = s.obuf := rfl
@[simp] theorem State.setHost_events (h : List HostOp) : (s.setHost h).events = s.events := rfl
@[simp] theorem State.setHost_faults (h : List HostOp) : (s.setHost h).faults = s.faults := rfl
@[simp] theorem State.setHost_hazarded (h : List HostOp) : (s.setHost h).hazarded = s.hazarded := rfl
@[simp] theorem State.setHost_draws (h : List HostOp) : (s.setHost h).draws = s.draws := rfl
@[simp] theorem State.setHost_replies (h : List HostOp) : (s.setHost h).replies = s.replies := rfl
@[simp] theorem State.setHost_host (h : List HostOp) : (s.setHost h).host = h := rfl
@[simp] theorem State.setHost_turns (h : List HostOp) : (s.setHost h).turns = s.turns := rfl

/-! ### setTurns -/

@[simp] theorem State.setTurns_params (t : List Agent) : (s.setTurns t).params = s.params := rfl
@[simp] theorem State.setTurns_cmd (t : List Agent) : (s.setTurns t).cmd = s.cmd := rfl
@[simp] theorem State.setTurns_status (t : List Agent) : (s.setTurns t).status = s.status := rfl
@[simp] theorem State.setTurns_ctrl (t : List Agent) : (s.setTurns t).ctrl = s.ctrl := rfl
@[simp] theorem State.setTurns_bodyLen (t : List Agent) : (s.setTurns t).bodyLen = s.bodyLen := rfl
@[simp] theorem State.setTurns_encType (t : List Agent) : (s.setTurns t).encType = s.encType := rfl
@[simp] theorem State.setTurns_subpkg (t : List Agent) : (s.setTurns t).subpkg = s.subpkg := rfl
@[simp] theorem State.setTurns_rsvd (t : List Agent) : (s.setTurns t).rsvd = s.rsvd := rfl
@[simp] theorem State.setTurns_msgType (t : List Agent) : (s.setTurns t).msgType = s.msgType := rfl
@[simp] theorem State.setTurns_bodyProps (t : List Agent) : (s.setTurns t).bodyProps = s.bodyProps := rfl
@[simp] theorem State.setTurns_flowId (t : List Agent) : (s.setTurns t).flowId = s.flowId := rfl
@[simp] theorem State.setTurns_phoneHi (t : List Agent) : (s.setTurns t).phoneHi = s.phoneHi := rfl
@[simp] theorem State.setTurns_phoneLo (t : List Agent) : (s.setTurns t).phoneLo = s.phoneLo := rfl
@[simp] theorem State.setTurns_inLen (t : List Agent) : (s.setTurns t).inLen = s.inLen := rfl
@[simp] theorem State.setTurns_start (t : List Agent) : (s.setTurns t).start = s.start := rfl
@[simp] theorem State.setTurns_endIdx (t : List Agent) : (s.setTurns t).endIdx = s.endIdx := rfl
@[simp] theorem State.setTurns_result (t : List Agent) : (s.setTurns t).result = s.result := rfl
@[simp] theorem State.setTurns_outLen (t : List Agent) : (s.setTurns t).outLen = s.outLen := rfl
@[simp] theorem State.setTurns_ibuf (t : List Agent) : (s.setTurns t).ibuf = s.ibuf := rfl
@[simp] theorem State.setTurns_obuf (t : List Agent) : (s.setTurns t).obuf = s.obuf := rfl
@[simp] theorem State.setTurns_events (t : List Agent) : (s.setTurns t).events = s.events := rfl
@[simp] theorem State.setTurns_faults (t : List Agent) : (s.setTurns t).faults = s.faults := rfl
@[simp] theorem State.setTurns_hazarded (t : List Agent) : (s.setTurns t).hazarded = s.hazarded := rfl
@[simp] theorem State.setTurns_draws (t : List Agent) : (s.setTurns t).draws = s.draws := rfl
@[simp] theorem State.setTurns_replies (t : List Agent) : (s.setTurns t).replies = s.replies := rfl
@[simp] theorem State.setTurns_host (t : List Agent) : (s.setTurns t).host = s.host := rfl
@[simp] theorem State.setTurns_turns (t : List Agent) : (s.setTurns t).turns = t := rfl

/-! ### afterIbufRead: only the fault set and the draw counter can change -/

@[simp] theorem State.afterIbufRead_params (a n : Nat) : (s.afterIbufRead a n).params = s.params := by
  unfold State.afterIbufRead; split <;> rfl
@[simp] theorem State.afterIbufRead_cmd (a n : Nat) : (s.afterIbufRead a n).cmd = s.cmd := by
  unfold State.afterIbufRead; split <;> rfl
@[simp] theorem State.afterIbufRead_status (a n : Nat) : (s.afterIbufRead a n).status = s.status := by
  unfold State.afterIbufRead; split <;> rfl
@[simp] theorem State.afterIbufRead_ctrl (a n : Nat) : (s.afterIbufRead a n).ctrl = s.ctrl := by
  unfold State.afterIbufRead; split <;> rfl
@[simp] theorem State.afterIbufRead_bodyLen (a n : Nat) : (s.afterIbufRead a n).bodyLen = s.bodyLen := by
  unfold State.afterIbufRead; split <;> rfl
@[simp] theorem State.afterIbufRead_encType (a n : Nat) : (s.afterIbufRead a n).encType = s.encType := by
  unfold State.afterIbufRead; split <;> rfl
@[simp] theorem State.afterIbufRead_subpkg (a n : Nat) : (s.afterIbufRead a n).subpkg = s.subpkg := by
  unfold State.afterIbufRead; split <;> rfl
@[simp] theorem State.afterIbufRead_rsvd (a n : Nat) : (s.afterIbufRead a n).rsvd = s.rsvd := by
  unfold State.afterIbufRead; split <;> rfl
@[simp] theorem State.afterIbufRead_msgType (a n : Nat) : (s.afterIbufRead a n).msgType = s.msgType := by
  unfold State.afterIbufRead; split <;> rfl
@[simp] theorem State.afterIbufRead_bodyProps (a n : Nat) : (s.afterIbufRead a n).bodyProps = s.bodyProps := by
  unfold State.afterIbufRead; split <;> rfl
@[simp] theorem State.afterIbufRead_flowId (a n : Nat) : (s.afterIbufRead a n).flowId = s.flowId := by
  unfold State.afterIbufRead; split <;> rfl
@[simp] theorem State.afterIbufRead_phoneHi (a n : Nat) : (s.afterIbufRead a n).phoneHi = s.phoneHi := by
  unfold State.afterIbufRead; split <;> rfl
@[simp] theorem State.afterIbufRead_phoneLo (a n : Nat) : (s.afterIbufRead a n).phoneLo = s.phoneLo := by
  unfold State.afterIbufRead; split <;> rfl
@[simp] theorem State.afterIbufRead_inLen (a n : Nat) : (s.afterIbufRead a n).inLen = s.inLen := by
  unfold State.afterIbufRead; split <;> rfl
@[simp] theorem State.afterIbufRead_start (a n : Nat) : (s.afterIbufRead a n).start = s.start := by
  unfold State.afterIbufRead; split <;> rfl
@[simp] theorem State.afterIbufRead_endIdx (a n : Nat) : (s.afterIbufRead a n).endIdx = s.endIdx := by
  unfold State.afterIbufRead; split <;> rfl
@[simp] theorem State.afterIbufRead_result (a n : Nat) : (s.afterIbufRead a n).result = s.result := by
  unfold State.afterIbufRead; split <;> rfl
@[simp] theorem State.afterIbufRead_outLen (a n : Nat) : (s.afterIbufRead a n).outLen = s.outLen := by
  unfold State.afterIbufRead; split <;> rfl
@[simp] theorem State.afterIbufRead_ibuf (a n : Nat) : (s.afterIbufRead a n).ibuf = s.ibuf := by
  unfold State.afterIbufRead; split <;> rfl
@[simp] theorem State.afterIbufRead_obuf (a n : Nat) : (s.afterIbufRead a n).obuf = s.obuf := by
  unfold State.afterIbufRead; split <;> rfl
@[simp] theorem State.afterIbufRead_events (a n : Nat) : (s.afterIbufRead a n).events = s.events := by
  unfold State.afterIbufRead; split <;> rfl
@[simp] theorem State.afterIbufRead_hazarded (a n : Nat) : (s.afterIbufRead a n).hazarded = s.hazarded := by
  unfold State.afterIbufRead; split <;> rfl
@[simp] theorem State.afterIbufRead_replies (a n : Nat) : (s.afterIbufRead a n).replies = s.replies := by
  unfold State.afterIbufRead; split <;> rfl
@[simp] theorem State.afterIbufRead_host (a n : Nat) : (s.afterIbufRead a n).host = s.host := by
  unfold State.afterIbufRead; split <;> rfl
@[simp] theorem State.afterIbufRead_turns (a n : Nat) : (s.afterIbufRead a n).turns = s.turns := by
  unfold State.afterIbufRead; split <;> rfl

/-! ### diagnose: only the event output can change -/

@[simp] theorem diagnose_params (ovf : Bool) (v : Word) : (diagnose ovf v s).params = s.params := by
  unfold diagnose; split <;> rfl
@[simp] theorem diagnose_cmd (ovf : Bool) (v : Word) : (diagnose ovf v s).cmd = s.cmd := by
  unfold diagnose; split <;> rfl
@[simp] theorem diagnose_status (ovf : Bool) (v : Word) : (diagnose ovf v s).status = s.status := by
  unfold diagnose; split <;> rfl
@[simp] theorem diagnose_ctrl (ovf : Bool) (v : Word) : (diagnose ovf v s).ctrl = s.ctrl := by
  unfold diagnose; split <;> rfl
@[simp] theorem diagnose_bodyLen (ovf : Bool) (v : Word) : (diagnose ovf v s).bodyLen = s.bodyLen := by
  unfold diagnose; split <;> rfl
@[simp] theorem diagnose_encType (ovf : Bool) (v : Word) : (diagnose ovf v s).encType = s.encType := by
  unfold diagnose; split <;> rfl
@[simp] theorem diagnose_subpkg (ovf : Bool) (v : Word) : (diagnose ovf v s).subpkg = s.subpkg := by
  unfold diagnose; split <;> rfl
@[simp] theorem diagnose_rsvd (ovf : Bool) (v : Word) : (diagnose ovf v s).rsvd = s.rsvd := by
  unfold diagnose; split <;> rfl
@[simp] theorem diagnose_msgType (ovf : Bool) (v : Word) : (diagnose ovf v s).msgType = s.msgType := by
  unfold diagnose; split <;> rfl
@[simp] theorem diagnose_bodyProps (ovf : Bool) (v : Word) : (diagnose ovf v s).bodyProps = s.bodyProps := by
  unfold diagnose; split <;> rfl
@[simp] theorem diagnose_flowId (ovf : Bool) (v : Word) : (diagnose ovf v s).flowId = s.flowId := by
  unfold diagnose; split <;> rfl
@[simp] theorem diagnose_phoneHi (ovf : Bool) (v : Word) : (diagnose ovf v s).phoneHi = s.phoneHi := by
  unfold diagnose; split <;> rfl
@[simp] theorem diagnose_phoneLo (ovf : Bool) (v : Word) : (diagnose ovf v s).phoneLo = s.phoneLo := by
  unfold diagnose; split <;> rfl
@[simp] theorem diagnose_inLen (ovf : Bool) (v : Word) : (diagnose ovf v s).inLen = s.inLen := by
  unfold diagnose; split <;> rfl
@[simp] theorem diagnose_start (ovf : Bool) (v : Word) : (diagnose ovf v s).start = s.start := by
  unfold diagnose; split <;> rfl
@[simp] theorem diagnose_endIdx (ovf : Bool) (v : Word) : (diagnose ovf v s).endIdx = s.endIdx := by
  unfold diagnose; split <;> rfl
@[simp] theorem diagnose_result (ovf : Bool) (v : Word) : (diagnose ovf v s).result = s.result := by
  unfold diagnose; split <;> rfl
@[simp] theorem diagnose_outLen (ovf : Bool) (v : Word) : (diagnose ovf v s).outLen = s.outLen := by
  unfold diagnose; split <;> rfl
@[simp] theorem diagnose_ibuf (ovf : Bool) (v : Word) : (diagnose ovf v s).ibuf = s.ibuf := by
  unfold diagnose; split <;> rfl
@[simp] theorem diagnose_obuf (ovf : Bool) (v : Word) : (diagnose ovf v s).obuf = s.obuf := by
  unfold diagnose; split <;> rfl
@[simp] theorem diagnose_faults (ovf : Bool) (v : Word) : (diagnose ovf v s).faults = s.faults := by
  unfold diagnose; split <;> rfl
@[simp] theorem diagnose_hazarded (ovf : Bool) (v : Word) : (diagnose ovf v s).hazarded = s.hazarded := by
  unfold diagnose; split <;> rfl
@[simp] theorem diagnose_draws (ovf : Bool) (v : Word) : (diagnose ovf v s).draws = s.draws := by
  unfold diagnose; split <;> rfl
@[simp] theorem diagnose_replies (ovf : Bool) (v : Word) : (diagnose ovf v s).replies = s.replies := by
  unfold diagnose; split <;> rfl
@[simp] theorem diagnose_host (ovf : Bool) (v : Word) : (diagnose ovf v s).host = s.host := by
  unfold diagnose; split <;> rfl
@[simp] theorem diagnose_turns (ovf : Bool) (v : Word) : (diagnose ovf v s).turns = s.turns := by
  unfold diagnose; split <;> rfl

@[simp] theorem diagnose_events (ovf : Bool) (v : Word) :
    (diagnose ovf v s).events = s.events ++ if ovf then [.diagOvf v] else [] := by
  cases ovf <;> simp [diagnose]

/-! ### Acceptance, completion and errors, as one write of STATUS -/

@[simp] theorem complete_eq (e : BitVec 4) (f : Bool) :
    complete e f s = s.setStatus { busy := false, done := true, ovf := f, err := e } := rfl

@[simp] theorem accept_eq (w : Word) :
    accept w s = (s.setCmd w).setStatus { busy := true, done := false, ovf := false, err := 0 } := rfl

@[simp] theorem raise_eq (e : CmdError) :
    raise e s = s.setStatus { busy := false, done := true, ovf := errorOvf e, err := errorCode e } := rfl

@[simp] theorem takeTurn_eq : takeTurn s = s.setTurns s.turns.tail := rfl

end Sys2Proof.Machine
end

