-- ==== Sys2Proof/Laws/Ops.lean ====
section
/-! SUPPORT. One lemma for each shared operation of Ops.lean and Operands.lean: what it gives, under which operands. -/

namespace Sys2Proof.Machine

/-! ### Reading IBUF -/

theorem State.length_ibufBytes (s : State) (a n : Nat) : (s.ibufBytes a n).length = n := by
  simp [State.ibufBytes]

/-- A range that holds `bs` gives `bs`, whatever the free values are (20_memory.md R71). -/
theorem State.ibufBytes_of_holds {s : State} {a : Nat} {bs : List Byte} (h : s.Holds a bs) :
    s.ibufBytes a bs.length = bs := by
  refine List.ext_getElem (by simp [State.ibufBytes]) fun i h1 h2 => ?_
  simp [State.ibufBytes, h i h2, List.getElem?_eq_getElem h2]

theorem State.ibufUnwritten_iff (s : State) (a n : Nat) :
    s.ibufUnwritten a n = true ↔ ∃ i, a ≤ i ∧ i < a + n ∧ s.ibuf.read i = none := by
  simp [State.ibufUnwritten, Memory.range, and_assoc]

theorem State.ibufUnwritten_of_holds {s : State} {a : Nat} {bs : List Byte} (h : s.Holds a bs) :
    s.ibufUnwritten a bs.length = false := by
  rw [Bool.eq_false_iff, ne_eq, State.ibufUnwritten_iff]
  rintro ⟨i, h1, h2, h3⟩
  have := h (i - a) (by omega)
  rw [Nat.add_sub_cancel' h1, h3, List.getElem?_eq_getElem (by omega)] at this
  cases this

/-- A command that reads only written cells changes nothing by reading (70_reset_and_hazards.md R193). -/
theorem State.afterIbufRead_of_written {s : State} {a n : Nat} (h : s.ibufUnwritten a n = false) :
    s.afterIbufRead a n = s := by
  simp [State.afterIbufRead, h]

/-- A command that reads an unwritten cell records `UNINIT_READ` (60_exceptions.md R182) and draws. -/
theorem State.afterIbufRead_of_unwritten {s : State} {a n : Nat} (h : s.ibufUnwritten a n = true) :
    s.afterIbufRead a n = s.recordUninitRead.draw := by
  simp [State.afterIbufRead, h]

/-- Reading IBUF can only add `UNINIT_READ` to the fault set. -/
theorem State.afterIbufRead_faults (s : State) (a n : Nat) :
    (s.afterIbufRead a n).faults = s.faults ∨
      (s.afterIbufRead a n).faults = { s.faults with uninitRead := true } := by
  unfold State.afterIbufRead
  split
  · exact .inr rfl
  · exact .inl rfl

/-! ### Writing OBUF -/

theorem State.setOutput_read (s : State) (out : List Byte) (a : Nat) :
    (s.setOutput out).obuf.read a = if a < out.length then out[a]? else s.obuf.read a := by
  simp [Memory.read_write]

/-! ### The range check (60_exceptions.md R172) -/

theorem checkRange_eq (p : Config.Params) (n : Nat) (st en : Int) :
    checkRange p n st en =
      if p.ibufBytes < n ∨ st < 0 ∨ (n : Int) < en ∨ en < st then some .range else none := by
  unfold checkRange
  split_ifs <;> first | rfl | omega

theorem State.rangeError_of_fails {s : State} (h : s.RangeFails) : s.rangeError = some .range := by
  unfold State.rangeError
  rw [checkRange_eq]
  exact if_pos h

theorem State.rangeError_of_not_fails {s : State} (h : ¬s.RangeFails) : s.rangeError = none := by
  unfold State.rangeError
  rw [checkRange_eq]
  exact if_neg h

/-- Operands that pass the check are the indices they stand for. -/
theorem State.RangeIs.spec {s : State} {n st en : Nat} (h : s.RangeIs n st en) :
    s.rangeError = none ∧ s.inCount = n ∧ s.startIdx = st ∧ s.stopIdx = en := by
  obtain ⟨h1, h2, h3, h4, h5, h6⟩ := h
  refine ⟨State.rangeError_of_not_fails ?_, h1, ?_, ?_⟩
  · unfold State.RangeFails; omega
  · simp [State.startIdx, State.startInt, h2]
  · simp [State.stopIdx, State.endInt, h3]

/-- Once the check has passed, `0 <= start <= end <= n <= IBUF_BYTES` (60_exceptions.md R172). -/
theorem State.rangeIs_of_not_fails {s : State} (h : ¬s.RangeFails) : s.RangeIs s.inCount s.startIdx s.stopIdx := by
  unfold State.RangeFails at h
  unfold State.RangeIs State.inCount State.startIdx State.stopIdx State.startInt State.endInt
  omega

theorem State.refusing_eq_true_iff (s : State) : s.refusing = true ↔ s.ctrl = 1 := by simp [State.refusing]

theorem State.refusing_eq_false_iff (s : State) : s.refusing = false ↔ s.ctrl = 0 := by
  have : ∀ c : BitVec 1, (c == 1#1) = false ↔ c = 0 := by decide
  exact this _

end Sys2Proof.Machine
end

