-- ==== Sys2Proof/Laws/Exec.lean ====
section
/-! SUPPORT. What each meaning answers, and what any command can do. -/

namespace Sys2Proof.Machine

theorem State.afterIbufRead_zero (s : State) (a : Nat) : s.afterIbufRead a 0 = s :=
  State.afterIbufRead_of_written (by simp [State.ibufUnwritten, Memory.range])

/-! ### One lemma a meaning and case -/

theorem execPack_refused {s : State} (h : overflow s.bodyLen = true) (h' : s.refusing = true) :
    execPack s = .next (raise .lenOverflow s) := by
  simp [execPack, h, h']

theorem execPack_packed {s : State} (h : overflow s.bodyLen = false ∨ s.refusing = false) :
    execPack s = .next (complete 0 (overflow s.bodyLen)
      ((diagnose (overflow s.bodyLen) s.bodyLen s).setResult
        ((packValue s.bodyLen s.encType s.subpkg s.rsvd).setWidth 24))) := by
  rcases h with h | h <;> simp [execPack, h]

theorem runChecksum_error {s : State} {e : CmdError} (h : s.rangeError = some e) :
    runChecksum s = raise e s := by
  simp [runChecksum, h]

theorem runChecksum_ok {s : State} (h : s.rangeError = none) :
    runChecksum s = complete 0 false
      ((s.afterIbufRead s.startIdx (s.stopIdx - s.startIdx)).setResult
        ((checksum (s.ibufBytes s.startIdx (s.stopIdx - s.startIdx))).setWidth 24)) := by
  simp [runChecksum, h]

theorem runTransform_error {f : List Byte → Nat → Nat → List Byte} {s : State} {e : CmdError}
    (h : s.rangeError = some e) : runTransform f s = raise e s := by
  simp [runTransform, h]

theorem runTransform_ok {f : List Byte → Nat → Nat → List Byte} {s : State}
    (h : s.rangeError = none) :
    runTransform f s = complete 0 false
      (((s.afterIbufRead 0 s.inCount).setOutput (f (s.ibufBytes 0 s.inCount) s.startIdx s.stopIdx)).setResult 0) := by
  simp [runTransform, h]

theorem runEncodeWithBody_range {s : State} (h : s.params.ibufBytes < s.inCount) :
    runEncodeWithBody s = raise .range s := by
  simp [runEncodeWithBody, h]

theorem runEncodeWithBody_refused {s : State} (h : s.inCount ≤ s.params.ibufBytes)
    (h1 : 1024 ≤ s.inCount) (h2 : s.refusing = true) : runEncodeWithBody s = raise .lenOverflow s := by
  simp [runEncodeWithBody, Nat.not_lt.2 h, h1, h2]

theorem runEncodeWithBody_framed {s : State} (h : s.inCount ≤ s.params.ibufBytes)
    (h1 : s.inCount < 1024 ∨ s.refusing = false) :
    runEncodeWithBody s = finishFrame (s.ibufBytes 0 s.inCount) (1024 ≤ s.inCount)
      (diagnose (1024 ≤ s.inCount) (BitVec.ofNat 32 s.inCount) (s.afterIbufRead 0 s.inCount)) := by
  have hc : ¬(decide (1024 ≤ s.inCount) && s.refusing) = true := by
    rcases h1 with h1 | h1
    · simp [Nat.not_le.2 h1]
    · simp [h1]
  simp only [runEncodeWithBody]
  rw [if_neg (Nat.not_lt.2 h), if_neg hc]

/-! ### The three shapes of a completed command -/

/-- Everything a command can do (30_encoding.md R88, 60_exceptions.md R170): an error that changes only STATUS, a scalar
result, or a byte output, of at most twice IBUF_BYTES plus 28 bytes (so that it fits OBUF, 00_scope.md R11). -/
inductive Shape (s : State) : State → Prop where
  | error (e : CmdError) : Shape s (raise e s)
  | scalar (a n : Nat) (ovf : Bool) (w : Word) (v : BitVec 24) :
      Shape s (complete 0 ovf ((diagnose ovf w (s.afterIbufRead a n)).setResult v))
  | bytes (a n : Nat) (ovf : Bool) (w : Word) (out : List Byte) (v : BitVec 24)
      (fits : out.length ≤ 2 * s.params.ibufBytes + 28) :
      Shape s (complete 0 ovf (((diagnose ovf w (s.afterIbufRead a n)).setOutput out).setResult v))

theorem length_escape_le (p : Config.Params) (buf : List Byte) (st en : Nat) (h : st ≤ en) :
    (escape p buf st en).length ≤ 2 * buf.length := by
  have h1 := length_escRange_le p (slice buf st en)
  have h2 := congrArg List.length (take_slice_drop (s := buf) h)
  simp only [escape, List.length_append] at *
  omega

theorem length_unescape_le (buf : List Byte) (st en : Nat) (h : st ≤ en) :
    (unescape buf st en).length ≤ buf.length := by
  have h1 := length_unescRange_le (slice buf st en)
  have h2 := congrArg List.length (take_slice_drop (s := buf) h)
  simp only [unescape, List.length_append] at *
  omega

theorem runTransform_shape (f : List Byte → Nat → Nat → List Byte) (s : State)
    (hf : ∀ buf st en, st ≤ en → (f buf st en).length ≤ 2 * buf.length) : Shape s (runTransform f s) := by
  by_cases h : s.RangeFails
  · rw [runTransform_error (State.rangeError_of_fails h)]
    exact .error _
  · have hr := State.rangeIs_of_not_fails h
    rw [runTransform_ok (State.rangeError_of_not_fails h)]
    refine .bytes 0 s.inCount false 0 _ 0 (Nat.le_trans (hf _ _ _ hr.2.2.2.1) ?_)
    have := hr.2.2.2.2.2
    rw [State.length_ibufBytes]
    omega

/-- Every command answers a next state, of one of the three shapes. -/
theorem exec_shape (i : Instr) (s : State) : ∃ t, exec i s = .next t ∧ Shape s t := by
  cases i with
  | pack =>
    by_cases h : overflow s.bodyLen = true ∧ s.refusing = true
    · exact ⟨_, execPack_refused h.1 h.2, .error _⟩
    · refine ⟨_, execPack_packed (by cases ho : overflow s.bodyLen <;> simp_all), ?_⟩
      have := Shape.scalar (s := s) 0 0 (overflow s.bodyLen) s.bodyLen
        ((packValue s.bodyLen s.encType s.subpkg s.rsvd).setWidth 24)
      rwa [State.afterIbufRead_zero] at this
  | buildHeader =>
    refine ⟨_, rfl, ?_⟩
    have := Shape.bytes (s := s) 0 0 false 0 (buildHeader s.phone s.msgType s.bodyProps s.flowId) 0
      (by rw [length_buildHeader]; omega)
    rwa [State.afterIbufRead_zero] at this
  | checksum =>
    refine ⟨_, rfl, ?_⟩
    by_cases h : s.RangeFails
    · rw [runChecksum_error (State.rangeError_of_fails h)]
      exact .error _
    · rw [runChecksum_ok (State.rangeError_of_not_fails h)]
      exact .scalar _ _ false 0 _
  | escape => exact ⟨_, rfl, runTransform_shape _ s (length_escape_le _)⟩
  | unescape =>
    refine ⟨_, rfl, runTransform_shape _ s fun buf st en h => ?_⟩
    have := length_unescape_le buf st en h
    omega
  | encodeWithBody =>
    refine ⟨_, rfl, ?_⟩
    by_cases h : s.params.ibufBytes < s.inCount
    · rw [runEncodeWithBody_range h]
      exact .error _
    · by_cases h1 : 1024 ≤ s.inCount ∧ s.refusing = true
      · rw [runEncodeWithBody_refused (Nat.not_lt.1 h) h1.1 h1.2]
        exact .error _
      · rw [runEncodeWithBody_framed (Nat.not_lt.1 h)
          (by cases hr : s.refusing <;> simp_all)]
        refine .bytes 0 s.inCount _ _ _ _ (Nat.le_trans (length_encodeFrame_le _ _ _ _ _) ?_)
        rw [State.length_ibufBytes]
        omega
  | encodeHeaderOnly =>
    refine ⟨_, rfl, ?_⟩
    have := Shape.bytes (s := s) 0 0 false 0 (encodeFrame s.params [] s.flowId s.phone s.msgType)
      (frameResult [] s.flowId s.phone s.msgType)
      (Nat.le_trans (length_encodeFrame_le _ _ _ _ _) (by simp))
    rwa [State.afterIbufRead_zero] at this

/-- A command never stops: `exec` answers a next state on every state. -/
theorem exec_ne_fault (i : Instr) (s : State) (r : Fault) : exec i s ≠ .fault r := by
  obtain ⟨t, h, -⟩ := exec_shape i s
  rw [h]
  exact nofun

/-- Inversion: a command's next state has one of the three shapes. -/
theorem shape_of_exec {i : Instr} {s t : State} (h : exec i s = .next t) : Shape s t := by
  obtain ⟨t', h', hs⟩ := exec_shape i s
  rw [h] at h'
  cases h'
  exact hs

end Sys2Proof.Machine
end

