-- ==== Sys2Proof/Laws/PerInstr.lean ====
section
/-! SUPPORT. The family Encoding, one lemma a command: its word is legal (30_encoding.md R81), the decoder reads it back,
and its opcode is the word's value (R82). -/

namespace Sys2Proof.Laws.Encoding

/-- The word of `i` is a legal command word with the opcode of `i`, and decodes to `i`. -/
def Statement (i : Instr) : Prop :=
  legalWord (encode i) = true ∧ decode (encode i) = .instr i ∧ (encode i).toNat = (opcode i).toNat ∧
    ∀ j, encode j = encode i → j = i

theorem pack : Statement .pack := ⟨by decide, by decide, by decide, by intro j; cases j <;> decide⟩

theorem buildHeader : Statement .buildHeader := ⟨by decide, by decide, by decide, by intro j; cases j <;> decide⟩

theorem checksum : Statement .checksum := ⟨by decide, by decide, by decide, by intro j; cases j <;> decide⟩

theorem escape : Statement .escape := ⟨by decide, by decide, by decide, by intro j; cases j <;> decide⟩

theorem unescape : Statement .unescape := ⟨by decide, by decide, by decide, by intro j; cases j <;> decide⟩

theorem encodeWithBody : Statement .encodeWithBody :=
  ⟨by decide, by decide, by decide, by intro j; cases j <;> decide⟩

theorem encodeHeaderOnly : Statement .encodeHeaderOnly :=
  ⟨by decide, by decide, by decide, by intro j; cases j <;> decide⟩

end Sys2Proof.Laws.Encoding
end

