-- ==== Sys2Proof/Laws/Step.lean ====
section
/-! SUPPORT. What a step can do: the port's accesses, the host's turn and the core's turn, each said once. -/

namespace Sys2Proof.Machine

theorem regAt_offset (r : Reg) : regAt (regOffset r) = some r := by
  cases r <;> decide

theorem regAt_eq_some {a : Nat} {r : Reg} (h : regAt a = some r) : a = regOffset r := by
  have := List.find?_some h
  simpa using (beq_iff_eq.1 this).symm

/-- An offset is a register's exactly when it is 4-aligned and at most 0x50 (20_memory.md R62). -/
theorem regAt_eq_none_iff (a : Nat) : regAt a = none ↔ ¬(a % 4 = 0 ∧ a ≤ 0x50) := by
  constructor
  · intro h hc
    have hb : ∀ k : Fin 21, regAt (4 * k.val) ≠ none := by decide
    have := hb ⟨a / 4, by omega⟩
    rw [show 4 * (a / 4) = a by omega] at this
    exact this h
  · intro h
    cases hr : regAt a with
    | none => rfl
    | some r =>
      exfalso
      apply h
      rw [regAt_eq_some hr]
      cases r <;> decide

theorem ibufIndex_eq_some {p : Config.Params} {a i : Nat} (h : ibufIndex p a = some i) :
    a = 0x10000 + i ∧ i < p.ibufBytes := by
  unfold ibufIndex at h
  split at h
  · have := Option.some.inj h
    omega
  · exact absurd h nofun

theorem ibufIndex_window {p : Config.Params} {i : Nat} (h : i < p.ibufBytes) : ibufIndex p (0x10000 + i) = some i := by
  unfold ibufIndex
  rw [if_pos (by omega), Nat.add_sub_cancel_left]

theorem obufIndex_window {p : Config.Params} {i : Nat} (h : i < p.obufBytes) : obufIndex p (0x20000 + i) = some i := by
  unfold obufIndex
  rw [if_pos (by omega), Nat.add_sub_cancel_left]

theorem ibufIndex_eq_none_iff (p : Config.Params) (a : Nat) :
    ibufIndex p a = none ↔ ¬(0x10000 ≤ a ∧ a < 0x10000 + p.ibufBytes) := by
  unfold ibufIndex
  split <;> simp_all

theorem obufIndex_eq_none_iff (p : Config.Params) (a : Nat) :
    obufIndex p a = none ↔ ¬(0x20000 ≤ a ∧ a < 0x20000 + p.obufBytes) := by
  unfold obufIndex
  split <;> simp_all

/-- Everything one access can do to the state (20_memory.md R62 to R64, 70_reset_and_hazards.md R195): only answer; record
a bus error; write a register or a cell while idle; accept a command; record a hazard while busy. `d` counts draws. -/
inductive AccessEffect (s : State) : State → Prop where
  | answer (r : Reply) : AccessEffect s (s.reply r)
  | drawn (r : Reply) : AccessEffect s (s.draw.reply r)
  | busWrite : AccessEffect s (s.recordBusFault.reply .busErrorWrite)
  | busRead (r : Reply) : AccessEffect s (s.recordBusFault.draw.reply r)
  | register (idle : s.status.busy = false) (r : Reg) (v : Word) (writable : regWritable r = true) (ncmd : r ≠ .cmd) :
      AccessEffect s ((storeReg r v s).reply .written)
  | cell (idle : s.status.busy = false) (i : Nat) (b : Byte) (inside : i < s.params.ibufBytes) :
      AccessEffect s ((s.setIbuf i b).reply .written)
  | accepted (idle : s.status.busy = false) (w : Word) : AccessEffect s ((accept w s).reply .written)
  | registerHazard (busy : s.status.busy = true) (r : Reg) (v : Word) (writable : regWritable r = true) :
      AccessEffect s ((storeReg r v s.draw).recordHostHazard.reply .written)
  | cellHazard (busy : s.status.busy = true) (i : Nat) (b : Byte) (inside : i < s.params.ibufBytes) :
      AccessEffect s ((s.draw.setIbuf i b).recordHostHazard.reply .written)

theorem replyCell_effect (c : Option Byte) (i : Nat) (s : State) : AccessEffect s (replyCell c i s) := by
  cases c
  · exact .drawn _
  · exact .answer _

theorem read32_effect (a : Nat) (s : State) : AccessEffect s (read32 a s) := by
  unfold read32
  split
  · split
    · exact .drawn _
    · exact .answer _
  · exact .busRead _

theorem write32_effect (a : Nat) (v : Word) (s : State) : AccessEffect s (write32 a v s) := by
  unfold write32
  split
  · rename_i r _
    unfold writeReg
    cases hw : regWritable r
    · exact .answer _
    · cases hb : s.status.busy
      · by_cases hr : r = .cmd
        · simp only [if_true, Bool.false_eq_true, if_false, hr]
          exact .accepted hb v
        · simp only [if_true, Bool.false_eq_true, if_false, hr]
          exact .register hb r v hw hr
      · simp only [if_true]
        exact .registerHazard hb r _ hw
  · exact .busWrite

theorem read8_effect (a : Nat) (s : State) : AccessEffect s (read8 a s) := by
  unfold read8
  split
  · exact replyCell_effect _ _ s
  · exact replyCell_effect _ _ s
  · exact .busRead _

theorem write8_effect (a : Nat) (b : Byte) (s : State) : AccessEffect s (write8 a b s) := by
  unfold write8
  split
  · rename_i i h
    have hi := (ibufIndex_eq_some h).2
    unfold writeIbuf
    cases hb : s.status.busy
    · exact .cell hb i b hi
    · exact .cellHazard hb i _ hi
  · exact .answer _
  · exact .busWrite

theorem portAccess_effect (x : PortAccess) (s : State) : AccessEffect s (portAccess x s) := by
  cases x with
  | read32 a => exact read32_effect a s
  | write32 a v => exact write32_effect a v s
  | read8 a => exact read8_effect a s
  | write8 a b => exact write8_effect a b s

/-- A register write leaves alone what no register write reaches. -/
theorem storeReg_kept (r : Reg) (v : Word) (s : State) :
    (storeReg r v s).params = s.params ∧ (storeReg r v s).events = s.events ∧ (storeReg r v s).obuf = s.obuf ∧
      (storeReg r v s).result = s.result ∧ (storeReg r v s).outLen = s.outLen ∧ (storeReg r v s).host = s.host ∧
      (storeReg r v s).turns = s.turns := by
  cases r <;> exact ⟨rfl, rfl, rfl, rfl, rfl, rfl, rfl⟩

/-- What no access of the host changes: the parameters, the core's outputs and what is still to come (10_state.md R47,
R50, R53). -/
theorem access_kept {s t : State} (h : AccessEffect s t) :
    t.params = s.params ∧ t.events = s.events ∧ t.obuf = s.obuf ∧ t.result = s.result ∧ t.outLen = s.outLen ∧
      t.host = s.host ∧ t.turns = s.turns := by
  cases h with
  | register _ r v => exact storeReg_kept r v s
  | registerHazard _ r v => exact storeReg_kept r v s.draw
  | _ => simp

/-! ### Reads are quiet -/

/-- A read changes the answers and the draw counter, and can record `BUS_FAULT`: nothing else (20_memory.md R70). -/
theorem read32_status (r : Reg) (s : State) :
    read32 (regOffset r) s =
      if s.status.busy && regBusyUnspecified r then s.draw.reply (.word (Config.unspecWord s.draws))
      else s.reply (.word (readReg s r)) := by
  simp [read32, regAt_offset]

/-! ### The step -/

/-- The core's turn with a command in flight. -/
theorem step_coreNext {s : State} (h : CoreNext s) : step s = coreTurn (takeTurn s) := by
  obtain ⟨h1, h2, -⟩ := h
  unfold step
  rw [h1, h2]
  rfl

/-- The host's turn, when an entry is there to be taken. -/
theorem step_hostNext {s : State} {op : HostOp} {rest : List HostOp} (h : HostNext s op rest) :
    step s = .next (hostTurn (takeTurn s)) := by
  obtain ⟨h1, h2, -⟩ := h
  unfold step
  rw [h1, h2]
  rfl

/-- The host's turn, when the entry is an access. -/
theorem step_access {s : State} {x : PortAccess} {rest : List HostOp} (h : HostNext s (.access x) rest) :
    step s = .next (portAccess x (taken s rest)) := by
  rw [step_hostNext h]
  have hh : (takeTurn s).host = .access x :: rest := h.2.2
  unfold hostTurn
  rw [hh]
  rfl

/-- Everything a step can do. `u` is the state with the schedule advanced. -/
theorem step_cases {s t : State} (h : step s = .next t) :
    (s.hazarded = true ∧ ∃ rest, s.host = .reset :: rest ∧ t = resetStep ((takeTurn s).setHost rest)) ∨
    (s.hazarded = false ∧
      ((nextAgent s = .core ∧ s.status.busy = false ∧ t = takeTurn s) ∨
       (nextAgent s = .core ∧ s.status.busy = true ∧ (∃ i, decode s.cmd = .instr i ∧ exec i (takeTurn s) = .next t)) ∨
       (nextAgent s = .core ∧ s.status.busy = true ∧ (∃ w, decode s.cmd = .illegal w) ∧
          t = raise .illegalCmd (takeTurn s)) ∨
       (nextAgent s = .host ∧ t = hostTurn (takeTurn s)))) := by
  unfold step at h
  cases hz : s.hazarded
  · refine .inr ⟨rfl, ?_⟩
    simp only [hz, Bool.false_eq_true, if_false] at h
    cases ha : nextAgent s
    · simp only [ha] at h
      cases h
      exact .inr (.inr (.inr ⟨rfl, rfl⟩))
    · simp only [ha, coreTurn] at h
      cases hb : s.status.busy
      · simp [hb] at h
        exact .inl ⟨rfl, rfl, by simp [← h]⟩
      · rw [if_pos (by simpa using hb)] at h
        cases hd : decode s.cmd
        · rename_i i
          simp only [takeTurn_eq, State.setTurns_cmd, hd] at h
          exact .inr (.inl ⟨rfl, rfl, i, rfl, h⟩)
        · rename_i w
          simp only [takeTurn_eq, State.setTurns_cmd, hd] at h
          cases h
          exact .inr (.inr (.inl ⟨rfl, rfl, ⟨w, rfl⟩, rfl⟩))
  · refine .inl ⟨rfl, ?_⟩
    simp only [hz, if_true, stepAfterHazard] at h
    split at h
    · rename_i rest hh
      cases h
      exact ⟨rest, hh, rfl⟩
    · cases h

/-- A step faults only in a run a hazard has left undefined. -/
theorem step_fault {s : State} {r : Fault} (h : step s = .fault r) : s.hazarded = true := by
  cases hz : s.hazarded
  · exfalso
    unfold step at h
    simp only [hz, Bool.false_eq_true, if_false] at h
    split at h
    · unfold coreTurn at h
      split at h
      · split at h
        · exact exec_ne_fault _ _ _ h
        · cases h
      · cases h
    · cases h
  · rfl

/-- Everything the host's turn can do (`u` keeps or drops the head of the host's list). -/
theorem hostTurn_cases (s : State) :
    hostTurn s = s ∨
    (∃ rest, AccessEffect (s.setHost rest) (hostTurn s)) ∨
    AccessEffect s (hostTurn s) ∨
    (∃ rest, s.host = .reset :: rest ∧ hostTurn s = resetStep (s.setHost rest)) := by
  unfold hostTurn
  split
  · exact .inl rfl
  · exact .inr (.inl ⟨_, portAccess_effect _ _⟩)
  · split
    · exact .inr (.inl ⟨_, read32_effect _ _⟩)
    · exact .inr (.inr (.inl (read32_effect _ _)))
  · rename_i rest h
    exact .inr (.inr (.inr ⟨rest, h, rfl⟩))

/-- What a store to a register leaves alone, whatever the register. -/
theorem storeReg_frame (r : Reg) (v : Word) (s : State) :
    (storeReg r v s).ibuf = s.ibuf ∧ (storeReg r v s).obuf = s.obuf ∧ (storeReg r v s).status = s.status ∧
    (storeReg r v s).result = s.result ∧ (storeReg r v s).outLen = s.outLen ∧ (storeReg r v s).hazarded = s.hazarded ∧
    (storeReg r v s).faults = s.faults ∧ (storeReg r v s).events = s.events ∧ (storeReg r v s).params = s.params := by
  cases r <;> simp [storeReg]

/-- One more step in a run: the step's next state is where the rest of the run starts. -/
theorem core_run_next (M : Host.Core) (k : Nat) {s t : M.State} (h : M.step s = .next t) :
    M.run (k + 1) s = M.run k t := by
  simp only [Host.Core.run, h]

/-- A run whose first step faults faults. -/
theorem core_run_fault (M : Host.Core) (k : Nat) {s : M.State} {r : M.Fault} (h : M.step s = .fault r) :
    M.run (k + 1) s = .fault r := by
  simp only [Host.Core.run, h]

end Sys2Proof.Machine
end

