-- ==== Sys2Proof/Tests/Slice0.lean ====
section
/-! SUPPORT. Small tests. Expected values are those of 95_test_vectors.md (the vector's id stands in the docstring), words
are written out from 30_encoding.md R81 and R82. The second half holds one witness a statement of
Certificates/Slice0/Obligations.lean: a concrete state and operands that meet its hypotheses, clause by clause. -/

namespace Sys2Proof.Tests

open Sys2Proof.Machine

/-! ### Helpers -/

/-- The next state of a step or a command. -/
def nextOf : Host.Outcome State Fault Refusal → Option State
  | .next s => some s
  | .fault _ => none
  | .refused _ => none

/-- After reset, with `bs` in IBUF from cell 0 and the three range operands. -/
def loaded (bs : List Byte) (n st en : Word) : State :=
  { State.reset with ibuf := Memory.cells 0 bs, inLen := n, start := st, endIdx := en }

/-- After reset, with the header operands of 95_test_vectors.md section 2.5. -/
def headed (mt : Half) : State :=
  { State.reset with msgType := mt, flowId := 1, phoneHi := 0x13800138#32, phoneLo := 0x000F#16 }

/-- After reset, with the command word `w` in flight and the core to move. -/
def inFlight (w : Word) : State := { accept w State.reset with turns := [.core] }

/-- After reset, with `op` next at the port. -/
def idleHost (op : HostOp) : State := { State.reset with host := [op] }

/-- After reset, with PACK in flight, the host to move and `op` next at the port. -/
def busyHost (op : HostOp) : State := { accept 1 State.reset with host := [op], turns := [.host] }

/-- What a byte command leaves: the bytes of OBUF, OUT_LEN, RESULT and the STATUS word. -/
def outputs (o : Host.Outcome State Fault Refusal) : Option (List Byte × Word × BitVec 24 × Word) :=
  (nextOf o).map fun t => (t.obuf.map Prod.snd, t.outLen, t.result, t.status.word)

/-- What a scalar command leaves: RESULT, the STATUS word and the events. -/
def scalars (o : Host.Outcome State Fault Refusal) : Option (BitVec 24 × Word × List Event) :=
  (nextOf o).map fun t => (t.result, t.status.word, t.events)

/-- IBUF holds the bytes that `loaded` puts there. -/
theorem loaded_holds (bs : List Byte) (n st en : Word) : (loaded bs n st en).Holds 0 bs := by
  intro i hi
  show Memory.read (Memory.cells 0 bs) (0 + i) = bs[i]?
  rw [Memory.read_cells]
  simp [hi]

/-! ### Well-formedness -/

theorem test_wf_word_z_set : legalWord 0x00000011#32 = false := by decide
theorem test_wf_word_top_bit_set : legalWord 0x80000001#32 = false := by decide
theorem test_wf_word_op_zero : legalWord 0x00000000#32 = false := by decide
theorem test_wf_word_op_eight : legalWord 0x00000008#32 = false := by decide
theorem test_wf_word_legal : legalWord 0x00000007#32 = true := by decide

theorem test_wf_params_this_hardware : Config.params.wf = true := by decide
theorem test_wf_params_no_ibuf :
    Config.Params.wf { ibufBytes := 0, obufBytes := 28, symmetricEscape := false, escapeChecksum := true } = false := by
  decide
theorem test_wf_params_ibuf_too_big :
    Config.Params.wf { ibufBytes := 32755, obufBytes := 65538, symmetricEscape := false, escapeChecksum := true } =
      false := by decide
theorem test_wf_params_obuf_too_small :
    Config.Params.wf { ibufBytes := 4096, obufBytes := 8219, symmetricEscape := false, escapeChecksum := true } =
      false := by decide
theorem test_wf_params_obuf_too_big :
    Config.Params.wf { ibufBytes := 1, obufBytes := 65537, symmetricEscape := false, escapeChecksum := true } = false := by
  decide
theorem test_wf_stmt_empty_ldb : HostStmt.wf (.ldb 0 []) = false := by decide
theorem test_wf_stmt_ldb : HostStmt.wf (.ldb 0 [0x7E#8]) = true := by decide

/-! ### Decoding: OP in bits 3:0, Z in bits 31:4 -/

theorem test_decode_pack : decode 0b00000000000000000000000000000001#32 = .instr .pack := by decide
theorem test_decode_build_header : decode 0b00000000000000000000000000000010#32 = .instr .buildHeader := by decide
theorem test_decode_checksum : decode 0b00000000000000000000000000000011#32 = .instr .checksum := by decide
theorem test_decode_escape : decode 0b00000000000000000000000000000100#32 = .instr .escape := by decide
theorem test_decode_unescape : decode 0b00000000000000000000000000000101#32 = .instr .unescape := by decide
theorem test_decode_encode_with_body : decode 0b00000000000000000000000000000110#32 = .instr .encodeWithBody := by decide
theorem test_decode_encode_header_only : decode 0b00000000000000000000000000000111#32 = .instr .encodeHeaderOnly := by
  decide
/-- D1, D2. -/
theorem test_decode_illegal_op : decode 0x0#32 = .illegal .noSuchOp ∧ decode 0x8#32 = .illegal .noSuchOp := by decide
/-- D4, D5. -/
theorem test_decode_illegal_z :
    decode 0x11#32 = .illegal .nonzeroZ ∧ decode 0x80000001#32 = .illegal .nonzeroZ := by decide
/-- A number wider than a command word is no command word. -/
theorem test_decode_table_word :
    decodeTableWord 32 0x6 = some .encodeWithBody ∧ decodeTableWord 8 0x1 = some .pack ∧
    decodeTableWord 32 0x8 = none ∧ decodeTableWord 32 0x100000001 = none := by decide

/-! ### One step of each command -/

/-- P2. -/
theorem test_pack_overflow :
    scalars (exec .pack { State.reset with bodyLen := 2000 }) = some (0x3D0, 0x06, [.diagOvf 2000]) := by decide

/-- Program C: `BODY_LEN = 500, ENC_TYPE = 9, SUBPKG = 1, RSVD = 2`. -/
theorem test_pack_fields :
    scalars (exec .pack { State.reset with bodyLen := 500, encType := 9, subpkg := 1, rsvd := 2 }) =
      some (0xA5F4, 0x02, []) := by decide

/-- H1 (source §8). -/
theorem test_build_header :
    outputs (exec .buildHeader (headed 0x8001)) =
      some ([0x80#8, 0x01#8, 0x00#8, 0x00#8, 0x13#8, 0x80#8, 0x01#8, 0x38#8, 0x00#8, 0x0F#8, 0x00#8, 0x01#8],
        12, 0, 0x02) := by decide

/-- K9: bytes outside the range are not read. -/
theorem test_checksum_sub_range :
    scalars (exec .checksum { loaded [] 3 1 3 with ibuf := Memory.cells 1 [0x02#8, 0x01#8] }) = some (0x03, 0x02, []) ∧
    (nextOf (exec .checksum { loaded [] 3 1 3 with ibuf := Memory.cells 1 [0x02#8, 0x01#8] })).map
      (·.faults.uninitRead) = some false := by decide

/-- K16: END is signed. -/
theorem test_checksum_end_signed :
    scalars (exec .checksum (loaded [] 2 0 0x80000000#32)) = some (0, 0x12, []) := by decide

/-- E2. -/
theorem test_escape :
    outputs (exec .escape (loaded [0x30#8, 0x7E#8, 0x08#8] 3 0 3)) =
      some ([0x30#8, 0x7D#8, 0x02#8, 0x08#8], 4, 0, 0x02) := by decide

/-- E5: bytes outside the range are copied. -/
theorem test_escape_sub_range :
    outputs (exec .escape (loaded [0x7E#8, 0x30#8, 0x7E#8] 3 1 2)) =
      some ([0x7E#8, 0x30#8, 0x7E#8], 3, 0, 0x02) := by decide

/-- U7: the scan is left to right. -/
theorem test_unescape_scan :
    outputs (exec .unescape (loaded [0x7D#8, 0x7D#8, 0x02#8] 3 0 3)) = some ([0x7D#8, 0x7E#8], 2, 0, 0x02) := by decide

/-- U9: a pair does not straddle `end`. -/
theorem test_unescape_straddle :
    outputs (exec .unescape (loaded [0x30#8, 0x7D#8, 0x02#8] 3 0 2)) =
      some ([0x30#8, 0x7D#8, 0x02#8], 3, 0, 0x02) := by decide

/-- F3: a delimiter in the body. -/
theorem test_encode_with_body :
    outputs (exec .encodeWithBody { headed 0x8001 with ibuf := [(0, 0x7E#8)], inLen := 1 }) =
      some ([0x7E#8, 0x80#8, 0x01#8, 0x00#8, 0x01#8, 0x13#8, 0x80#8, 0x01#8, 0x38#8, 0x00#8, 0x0F#8, 0x00#8, 0x01#8,
        0x7D#8, 0x02#8, 0x5A#8, 0x7E#8], 17, 0x5A0001, 0x02) := by decide

/-- F12: RANGE is checked before LEN_OVERFLOW. -/
theorem test_encode_with_body_priority :
    outputs (exec .encodeWithBody { State.reset with inLen := 40000, ctrl := 1 }) = some ([], 0, 0, 0x12) := by decide

/-- F1 (source §8). -/
theorem test_encode_header_only :
    outputs (exec .encodeHeaderOnly (headed 0x8001)) =
      some ([0x7E#8, 0x80#8, 0x01#8, 0x00#8, 0x00#8, 0x13#8, 0x80#8, 0x01#8, 0x38#8, 0x00#8, 0x0F#8, 0x00#8, 0x01#8,
        0x25#8, 0x7E#8], 15, 0x250000, 0x02) := by decide

/-- F6: a checksum of `0x7E` is escaped. -/
theorem test_encode_header_only_checksum :
    outputs (exec .encodeHeaderOnly (headed 0x00DA)) =
      some ([0x7E#8, 0x00#8, 0xDA#8, 0x00#8, 0x00#8, 0x13#8, 0x80#8, 0x01#8, 0x38#8, 0x00#8, 0x0F#8, 0x00#8, 0x01#8,
        0x7D#8, 0x02#8, 0x7E#8], 16, 0x7E0000, 0x02) := by decide

/-- F6 on an instance with `P_ESCAPE_CHECKSUM = false`. -/
theorem test_encode_raw_checksum :
    outputs (exec .encodeHeaderOnly
        { headed 0x00DA with params := { Config.params with escapeChecksum := false } }) =
      some ([0x7E#8, 0x00#8, 0xDA#8, 0x00#8, 0x00#8, 0x13#8, 0x80#8, 0x01#8, 0x38#8, 0x00#8, 0x0F#8, 0x00#8, 0x01#8,
        0x7E#8, 0x7E#8], 15, 0x7E0000, 0x02) := by decide

/-- E9 on an instance with `P_SYMMETRIC_ESCAPE = true`. -/
theorem test_escape_symmetric :
    outputs (exec .escape
        { loaded [0x7D#8, 0x7E#8] 2 0 2 with params := { Config.params with symmetricEscape := true } }) =
      some ([0x7D#8, 0x01#8, 0x7D#8, 0x02#8], 4, 0, 0x02) := by decide

/-! ### One step at the port -/

/-- R2: PACK right after reset, through the fetch of the model. -/
theorem test_fetch_pack : scalars (step (State.reset.withFetchWord 32 0x1)) = some (0, 0x02, []) := by decide

/-- D4. -/
theorem test_step_illegal : scalars (step (inFlight 0x11)) = some (0, 0x22, []) := by decide

/-- R6. -/
theorem test_write_msg_type :
    (nextOf (step (idleHost (.access (.write32 0x1C 0xFFFF1234#32))))).map (fun t => readReg t .msgType) =
      some 0x1234 := by decide

/-- R14. -/
theorem test_busy_write :
    (nextOf (step (busyHost (.access (.write32 0x34 0))))).map (fun t => (t.faults.hostHazard, t.hazarded)) =
      some (true, true) := by decide

/-- R11: an 8-bit access to the CSR window. -/
theorem test_bus_error :
    (nextOf (step (idleHost (.access (.write8 0 1))))).map (fun t => (t.faults.busFault, t.cmd, t.replies)) =
      some (true, 0, [.busErrorWrite]) := by decide

/-- R18. -/
theorem test_busy_status :
    (nextOf (step (busyHost (.access (.read32 0x04))))).map (fun t => t.replies) = some [.word 0x01] := by decide

/-- R20: reset while a command is in flight. -/
theorem test_busy_reset :
    (nextOf (step (busyHost .reset))).map (fun t => (t.status.word, t.cmd, t.events)) = some (0, 0, []) := by decide

/-! ### Witnesses: a state and operands that meet each statement's hypotheses -/

/-- Every command can be in flight with the core to move. -/
theorem test_witness_CoreNext (i : Instr) : CoreNext (inFlight (encode i)) ∧ decode (inFlight (encode i)).cmd = .instr i := by
  cases i <;> exact ⟨⟨rfl, rfl, rfl⟩, rfl⟩

theorem test_witness_HostNext (op : HostOp) :
    HostNext (idleHost op) op [] ∧ (idleHost op).status.busy = false ∧ HostNext (busyHost op) op [] ∧
    (busyHost op).status.busy = true := ⟨⟨rfl, rfl, rfl⟩, rfl, ⟨rfl, rfl, rfl⟩, rfl⟩

theorem test_witness_WordDecodesExactlyToItsCommand : Instr.wf .encodeHeaderOnly = true := by decide

theorem test_witness_CoreStepRunsDecodedCommand :
    CoreNext (inFlight 7) ∧ decode (inFlight 7).cmd = .instr .encodeHeaderOnly := ⟨⟨rfl, rfl, rfl⟩, rfl⟩

theorem test_witness_FetchedWordRunsNext :
    32 ≤ 32 ∧ 7 < 2 ^ 32 ∧ decodeTableWord 32 7 = some .encodeHeaderOnly := by decide

theorem test_witness_IdleStepsOnlyAdvanceSchedule :
    (State.reset.hazarded = false ∧ nextAgent State.reset = .host ∧ State.reset.host = []) ∧
    (State.reset.setTurns [.core]).hazarded = false ∧ nextAgent (State.reset.setTurns [.core]) = .core ∧
    (State.reset.setTurns [.core]).status.busy = false := by decide

theorem test_witness_CmdWriteAcceptedWhenIdle :
    (HostNext (idleHost (.access (.write32 0x00 0xFFFFFFFF#32))) (.access (.write32 0x00 0xFFFFFFFF#32)) [] ∧
      (idleHost (.access (.write32 0x00 0xFFFFFFFF#32))).status.busy = false) ∧
    HostNext (busyHost (.access (.write32 0x00 1#32))) (.access (.write32 0x00 1#32)) [] ∧
    (busyHost (.access (.write32 0x00 1#32))).status.busy = true :=
  ⟨⟨⟨rfl, rfl, rfl⟩, rfl⟩, ⟨rfl, rfl, rfl⟩, rfl⟩

theorem test_witness_IllegalWordCompletesWithErr2 :
    (CoreNext (inFlight 0x11) ∧ (inFlight 0x11).cmd.toNat / 16 ≠ 0) ∧
    (CoreNext (inFlight 0x0) ∧ (inFlight 0x0).cmd.toNat % 16 = 0) ∧
    (CoreNext (inFlight 0x8) ∧ 8 ≤ (inFlight 0x8).cmd.toNat % 16) :=
  ⟨⟨⟨rfl, rfl, rfl⟩, by decide⟩, ⟨⟨rfl, rfl, rfl⟩, by decide⟩, ⟨⟨rfl, rfl, rfl⟩, by decide⟩⟩

theorem test_witness_CommandsLeaveOperandsUnchanged (i : Instr) : ∃ t, exec i State.reset = .next t := by
  cases i <;> exact ⟨_, rfl⟩

theorem test_witness_ErrorsChangeOnlyStatus :
    (∃ t, exec .checksum (loaded [] 0 0 1) = .next t ∧ t.status.err ≠ 0) ∧
    (CoreNext (inFlight 0x11) ∧ decode (inFlight 0x11).cmd = .illegal .nonzeroZ) ∧
    (CoreNext (inFlight 0x8) ∧ decode (inFlight 0x8).cmd = .illegal .noSuchOp) ∧
    HostNext (idleHost (.access (.write32 0x00 1#32))) (.access (.write32 0x00 1#32)) [] ∧
    (idleHost (.access (.write32 0x00 1#32))).status.busy = false :=
  ⟨⟨_, rfl, by decide⟩, ⟨⟨rfl, rfl, rfl⟩, rfl⟩, ⟨⟨rfl, rfl, rfl⟩, rfl⟩, ⟨rfl, rfl, rfl⟩, rfl⟩

/-- Each test of `CheckRange` at its boundary, and a range that passes with every test at equality. -/
theorem test_witness_RangeFails :
    (loaded [] 4097 0 0).RangeFails ∧ (loaded [] 2 0xFFFFFFFF#32 2).RangeFails ∧ (loaded [] 2 0 3).RangeFails ∧
    (loaded [] 2 2 1).RangeFails ∧ ¬(loaded [] 4096 4096 4096).RangeFails ∧ ¬(loaded [] 0 0 0).RangeFails := by
  unfold State.RangeFails
  decide

theorem test_witness_ErrorCodePerCommand :
    (loaded [] 4097 0 0).RangeFails ∧ ¬(loaded [] 4096 4096 4096).RangeFails ∧
    (CoreNext (inFlight 0x11) ∧ decode (inFlight 0x11).cmd = .illegal .nonzeroZ) ∧
    (∃ t, exec .pack { State.reset with bodyLen := 1024, ctrl := 1 } = .next t ∧ t.status.err ≠ 0) ∧
    ∃ t, exec .encodeWithBody { State.reset with inLen := 40000, ctrl := 1 } = .next t ∧ t.status.err ≠ 0 :=
  ⟨test_witness_RangeFails.1, test_witness_RangeFails.2.2.2.2.1, ⟨⟨rfl, rfl, rfl⟩, rfl⟩, ⟨_, rfl, by decide⟩, _, rfl, by decide⟩

theorem test_witness_OutputsPerCommand (i : Instr) :
    State.reset.params.wf = true ∧ ∃ t, exec i State.reset = .next t ∧ t.status.err = 0 := by
  cases i <;> exact ⟨by decide, _, rfl, by decide⟩

theorem test_witness_RangeCheckDecides :
    (loaded [] 4097 0 0).RangeFails ∧ (loaded [] 2 0xFFFFFFFF#32 2).start.toInt = -1 ∧
    (loaded [] 0 0 1).endIdx.toInt = (loaded [] 0 0 1).inLen.toNat + 1 ∧ ¬(loaded [] 4096 4096 4096).RangeFails :=
  ⟨test_witness_RangeFails.1, by decide, by decide, test_witness_RangeFails.2.2.2.2.1⟩

theorem test_witness_UnwrittenReadRecorded :
    ((loaded [] 4096 4095 4096).ibuf.read 4095 = none ∧ (loaded [] 4096 4095 4096).RangeIs 4096 4095 4096 ∧
      4095 ≤ 4095 ∧ 4095 < 4096) ∧
    ((loaded [] 4096 0 0).ibuf.read 4095 = none ∧ (loaded [] 4096 0 0).RangeIs 4096 0 0 ∧ 4095 < 4096) ∧
    ((loaded [] 4096 0 0).inLen.toNat ≤ 4096 ∧ (loaded [] 4096 0 0).ctrl = 0 ∧ 4095 < (loaded [] 4096 0 0).inLen.toNat) ∧
    ({ loaded [] 1023 0 0 with ctrl := 1 }.inLen.toNat < 1024 ∧
      1022 < { loaded [] 1023 0 0 with ctrl := 1 }.inLen.toNat) := by
  unfold State.RangeIs
  decide

theorem test_witness_PackEffect :
    { State.reset with bodyLen := 1023, ctrl := 1 }.bodyLen.toInt < 1024 ∧
    { State.reset with bodyLen := 0x80000000#32 }.bodyLen.toInt < 1024 ∧
    (1024 ≤ { State.reset with bodyLen := 1024 }.bodyLen.toInt ∧ { State.reset with bodyLen := 1024 }.ctrl = 0) ∧
    1024 ≤ { State.reset with bodyLen := 0x7FFFFFFF#32, ctrl := 1 }.bodyLen.toInt ∧
    { State.reset with bodyLen := 0x7FFFFFFF#32, ctrl := 1 }.ctrl = 1 := by decide

theorem test_witness_PackReadsOnlyItsOperands :
    State.reset.bodyLen = (loaded [0x7E#8] 1 0 1).bodyLen ∧ State.reset.encType = (loaded [0x7E#8] 1 0 1).encType ∧
    State.reset.subpkg = (loaded [0x7E#8] 1 0 1).subpkg ∧ State.reset.rsvd = (loaded [0x7E#8] 1 0 1).rsvd ∧
    State.reset.ctrl = (loaded [0x7E#8] 1 0 1).ctrl ∧
    (∃ t, exec .pack State.reset = .next t ∧ t.status.err = 0) ∧ State.reset ≠ loaded [0x7E#8] 1 0 1 :=
  ⟨rfl, rfl, rfl, rfl, rfl, ⟨_, rfl, by decide⟩, by decide⟩

theorem test_witness_ChecksumEffect :
    ((loaded [0x5A#8] 1 0 1).RangeIs 1 0 1 ∧ [0x5A#8].length = 1 - 0 ∧ (loaded [0x5A#8] 1 0 1).Holds 0 [0x5A#8]) ∧
    ((loaded [] 4096 4096 4096).RangeIs 4096 4096 4096 ∧ (loaded [] 4096 4096 4096).Holds 4096 []) ∧
    (loaded [] 4097 0 0).RangeFails :=
  ⟨⟨by unfold State.RangeIs; decide, rfl, loaded_holds _ _ _ _⟩,
    ⟨by unfold State.RangeIs; decide, fun i hi => absurd hi (Nat.not_lt_zero i)⟩, test_witness_RangeFails.1⟩

theorem test_witness_ChecksumLaws : List.Perm [0x80#8, 0x01#8] [0x01#8, 0x80#8] := List.Perm.swap _ _ _

/-- The hypotheses of EscapeEffect and of UnescapeEffect: a sub-range, and the largest buffer. -/
theorem test_witness_EscapeEffect :
    ((loaded [0x7E#8, 0x30#8, 0x7E#8] 3 1 2).RangeIs 3 1 2 ∧ [0x7E#8, 0x30#8, 0x7E#8].length = 3 ∧
      (loaded [0x7E#8, 0x30#8, 0x7E#8] 3 1 2).Holds 0 [0x7E#8, 0x30#8, 0x7E#8]) ∧
    ((loaded (List.replicate 4096 0x7E#8) 4096 0 4096).RangeIs 4096 0 4096 ∧
      (List.replicate 4096 0x7E#8).length = 4096 ∧
      (loaded (List.replicate 4096 0x7E#8) 4096 0 4096).Holds 0 (List.replicate 4096 0x7E#8)) ∧
    (loaded [] 4097 0 0).RangeFails :=
  ⟨⟨by unfold State.RangeIs; decide, rfl, loaded_holds _ _ _ _⟩,
    ⟨⟨rfl, by decide, by decide, by decide, by decide, by decide⟩, List.length_replicate, loaded_holds _ _ _ _⟩,
    test_witness_RangeFails.1⟩

theorem test_witness_UnescapeEffect :
    (loaded [0x7D#8, 0x02#8] 2 0 2).RangeIs 2 0 2 ∧ [0x7D#8, 0x02#8].length = 2 ∧
    (loaded [0x7D#8, 0x02#8] 2 0 2).Holds 0 [0x7D#8, 0x02#8] ∧ (loaded [] 4097 0 0).RangeFails :=
  ⟨by unfold State.RangeIs; decide, rfl, loaded_holds _ _ _ _, test_witness_RangeFails.1⟩

theorem test_witness_UnescRangeByCases :
    ¬(0x7D#8 = 0x7D#8 ∧ ([0x03#8].head? = some 0x01#8 ∨ [0x03#8].head? = some 0x02#8)) ∧
    ¬(0x7D#8 = 0x7D#8 ∧ (([] : List Byte).head? = some 0x01#8 ∨ ([] : List Byte).head? = some 0x02#8)) ∧
    2 ≤ 2 ∧ 2 ≤ [0x7D#8, 0x01#8].length := by decide

theorem test_witness_PairNeverStraddlesRangeEnd :
    0 ≤ 1 ∧ 1 < [0x30#8, 0x7D#8, 0x02#8].length ∧ [0x30#8, 0x7D#8, 0x02#8][1]? = some 0x7D#8 := by decide

/-- The smallest parameters that R11 admits, and a buffer that fills them. -/
theorem test_witness_EscapedLength :
    0 ≤ 1 ∧ 1 ≤ [0x7E#8].length ∧
    Config.Params.wf { ibufBytes := 1, obufBytes := 30, symmetricEscape := true, escapeChecksum := true } = true ∧
    [0x7E#8].length ≤ 1 := by decide

theorem test_witness_EscapeLaws :
    0 ≤ 1 ∧ 1 ≤ [0x7D#8].length ∧ 0x7E#8 ∉ ([0x7D#8].take 1).drop 0 ∧ 0x7D#8 ∉ ([0x30#8].take 1).drop 0 ∧
    0x7E#8 ∉ ([0x30#8].take 1).drop 0 := by decide

theorem test_witness_UnescapedLength : 0 ≤ 2 ∧ 2 ≤ [0x7D#8, 0x01#8].length := by decide

theorem test_witness_UnescapeRestoresEscaped :
    1 ≤ 4 ∧ 4 ≤ [0x11#8, 0x7E#8, 0x22#8, 0x7E#8, 0x33#8].length ∧
    0x7D#8 ∉ ([0x11#8, 0x7E#8, 0x22#8, 0x7E#8, 0x33#8].take 4).drop 1 ∧
    { Config.params with symmetricEscape := true }.symmetricEscape = true := by decide

theorem test_witness_AsymmetricRoundTripExactly : Config.params.symmetricEscape = false := by decide

/-- The largest body, a body at each side of 1024, and the two errors at their boundaries. -/
theorem test_witness_EncodeWithBodyEffect :
    ((List.replicate 4096 0x00#8).length = (loaded (List.replicate 4096 0x00#8) 4096 0 0).inLen.toNat ∧
      (loaded (List.replicate 4096 0x00#8) 4096 0 0).inLen.toNat ≤ 4096 ∧
      (loaded (List.replicate 4096 0x00#8) 4096 0 0).ctrl = 0 ∧
      (loaded (List.replicate 4096 0x00#8) 4096 0 0).Holds 0 (List.replicate 4096 0x00#8)) ∧
    ((List.replicate 1023 0x00#8).length = (loaded (List.replicate 1023 0x00#8) 1023 0 0).inLen.toNat ∧
      (loaded (List.replicate 1023 0x00#8) 1023 0 0).inLen.toNat < 1024 ∧
      (loaded (List.replicate 1023 0x00#8) 1023 0 0).Holds 0 (List.replicate 1023 0x00#8)) ∧
    4096 < (loaded [] 4097 0 0).inLen.toNat ∧
    (1024 ≤ { loaded [] 1024 0 0 with ctrl := 1 }.inLen.toNat ∧ { loaded [] 4096 0 0 with ctrl := 1 }.inLen.toNat ≤ 4096 ∧
      { loaded [] 1024 0 0 with ctrl := 1 }.ctrl = 1) :=
  ⟨⟨List.length_replicate, by decide, rfl, loaded_holds _ _ _ _⟩,
    ⟨List.length_replicate, by decide, loaded_holds _ _ _ _⟩, by decide, by decide⟩

theorem test_witness_FrameLayout :
    [0x7E#8].length < 2 ^ 32 ∧ Config.params.escapeChecksum = true ∧
    { Config.params with escapeChecksum := false }.escapeChecksum = false := by decide

theorem test_witness_FrameDelimitersOnlyAtEnds :
    Config.params.escapeChecksum = true ∧ { Config.params with escapeChecksum := false }.escapeChecksum = false := by
  decide

theorem test_witness_FrameLength : Config.params.wf = true ∧ (List.replicate 4096 0x7E#8).length ≤ Config.params.ibufBytes :=
  ⟨by decide, Nat.le_of_eq List.length_replicate⟩

theorem test_witness_EmptyBodyEncodesAsHeaderOnly : (headed 0x8001).inLen = 0 := rfl

theorem test_witness_OversizedBodyDeclaresLengthMod1024 :
    (loaded (List.replicate 1024 0x00#8) 1024 0 0).params.wf = true ∧
    (List.replicate 1024 0x00#8).length = (loaded (List.replicate 1024 0x00#8) 1024 0 0).inLen.toNat ∧
    1024 ≤ (List.replicate 1024 0x00#8).length ∧
    (List.replicate 1024 0x00#8).length ≤ (loaded (List.replicate 1024 0x00#8) 1024 0 0).params.ibufBytes ∧
    (loaded (List.replicate 1024 0x00#8) 1024 0 0).ctrl = 0 ∧
    (loaded (List.replicate 1024 0x00#8) 1024 0 0).Holds 0 (List.replicate 1024 0x00#8) ∧
    (loaded (List.replicate 1024 0x00#8) 1024 0 0).params.escapeChecksum = true := by
  rw [List.length_replicate]
  exact ⟨rfl, rfl, Nat.le_refl _, by decide, rfl, loaded_holds _ _ _ _, rfl⟩

/-- A frame of vector F1 has no pair, since its header and checksum hold no `0x7D`. -/
theorem test_witness_ReceiverRecoversFrame :
    Config.params.escapeChecksum = true ∧
    ¬HasPair (framePayload [] 1 (headed 0x8001).phone 0x8001 ++
      [checksum (framePayload [] 1 (headed 0x8001).phone 0x8001)]) ∧
    { Config.params with symmetricEscape := true }.symmetricEscape = true := by
  refine ⟨by decide, ?_, by decide⟩
  rintro ⟨u, v, c, h, -⟩
  have hn : 0x7D#8 ∉ framePayload [] 1 (headed 0x8001).phone 0x8001 ++
    [checksum (framePayload [] 1 (headed 0x8001).phone 0x8001)] := by decide
  rw [h] at hn
  exact hn (by simp)

theorem test_witness_RegistersReadAfterReset :
    16 ≤ 16 ∧ (0x50, 0x00002020#32) ∈ [(0x44, 0x4A380001#32), (0x48, cfgWord State.reset.params),
      (0x4C, BitVec.ofNat 32 State.reset.params.ibufBytes), (0x50, BitVec.ofNat 32 State.reset.params.obufBytes)] ∧
    HostNext (busyHost (.access (.read32 0x50))) (.access (.read32 0x50)) [] :=
  ⟨Nat.le_refl _, by decide, rfl, rfl, rfl⟩

theorem test_witness_StatusReadLayout :
    HostNext (busyHost (.access (.read32 0x04))) (.access (.read32 0x04)) [] := ⟨rfl, rfl, rfl⟩

/-- The offset table at START and PHONE_LO, an RO offset while busy, and the clauses by register name. -/
theorem test_witness_RegisterWriteReadsBack :
    (HostNext (idleHost (.access (.write32 0x34 0xFFFFFFFF#32))) (.access (.write32 0x34 0xFFFFFFFF#32)) [] ∧
      (idleHost (.access (.write32 0x34 0xFFFFFFFF#32))).status.busy = false ∧
      (0x34, { State.reset with start := 0xFFFFFFFF#32 }) ∈ writeTable State.reset 0xFFFFFFFF#32 ∧
      (0x2C, { State.reset with phoneLo := 0x1234 }) ∈ writeTable State.reset 0xFFFF1234#32 ∧
      taken (idleHost (.access (.write32 0x34 0xFFFFFFFF#32))) [] = State.reset) ∧
    (HostNext (busyHost (.access (.write32 0x50 5))) (.access (.write32 0x50 5)) [] ∧ 0x50 ∈ roOffsets) ∧
    (HostNext (idleHost (.access (.write32 (regOffset .msgType) 0xFFFF1234#32)))
        (.access (.write32 (regOffset .msgType) 0xFFFF1234#32)) [] ∧ regWritable .msgType = true ∧
      (idleHost (.access (.write32 (regOffset .msgType) 0xFFFF1234#32))).status.busy = false ∧ Reg.cmd ≠ .msgType ∧
      Reg.msgType ≠ .cmd) ∧
    HostNext (busyHost (.access (.write32 (regOffset .obufSize) 5))) (.access (.write32 (regOffset .obufSize) 5)) [] ∧
    regWritable .obufSize = false :=
  ⟨⟨⟨rfl, rfl, rfl⟩, rfl, by decide, by decide, rfl⟩, ⟨⟨rfl, rfl, rfl⟩, by decide⟩,
    ⟨⟨rfl, rfl, rfl⟩, rfl, rfl, by decide, by decide⟩, ⟨rfl, rfl, rfl⟩, rfl⟩

theorem test_witness_RegisterReadAnswers :
    (HostNext (busyHost (.access (.read32 0x34))) (.access (.read32 0x34)) [] ∧
      (0x34, 0#32) ∈ readTable (busyHost (.access (.read32 0x34)))) ∧
    (HostNext (idleHost (.access (.read32 0x40))) (.access (.read32 0x40)) [] ∧
      (idleHost (.access (.read32 0x40))).status.busy = false ∧
      (0x40, 0#32) ∈ outputTable (idleHost (.access (.read32 0x40)))) ∧
    HostNext (busyHost (.access (.read32 0x3C))) (.access (.read32 0x3C)) [] ∧ 0x3C ∈ [0x3C, 0x40] :=
  ⟨⟨⟨rfl, rfl, rfl⟩, by decide⟩, ⟨⟨rfl, rfl, rfl⟩, rfl, by decide⟩, ⟨rfl, rfl, rfl⟩, by decide⟩

/-- R9 to R13 of 95_test_vectors.md, and the last good offset of each window. -/
theorem test_witness_BusErrorsRecordedAndChangeNothing :
    BusError Config.params (.read32 0x02) ∧ BusError Config.params (.read32 0x54) ∧
    BusError Config.params (.write8 0 1) ∧ BusError Config.params (.write32 0x10000 1) ∧
    BusError Config.params (.write8 0x11000 1) ∧ BusError Config.params (.read8 0x22020) ∧
    ¬BusError Config.params (.read32 0x50) ∧ ¬BusError Config.params (.write8 0x10FFF 1) ∧
    ¬BusError Config.params (.read8 0x2201F) ∧ (idleHost (.access (.read32 0x54))).params = Config.params ∧
    HostNext (idleHost (.access (.read32 0x54))) (.access (.read32 0x54)) [] := by
  unfold BusError
  refine ⟨by decide, by decide, by decide, by decide, by decide, by decide, by decide, by decide, by decide, rfl, rfl, rfl,
    rfl⟩

theorem test_witness_BufferWindowAccesses :
    State.reset.params.wf = true ∧ State.reset.params.ibufBytes = 4096 ∧ State.reset.params.obufBytes = 8224 ∧
    (idleHost (.access (.write8 (0x10000 + 4095) 1))).status.busy = false ∧ 4095 < 4096 ∧ 8223 < 8224 ∧
    HostNext (idleHost (.access (.write8 (0x10000 + 4095) 1))) (.access (.write8 (0x10000 + 4095) 1)) [] ∧
    HostNext (idleHost (.access (.read8 (0x10000 + 4095)))) (.access (.read8 (0x10000 + 4095))) [] ∧
    (idleHost (.access (.read8 (0x10000 + 4095)))).ibuf.read 4095 = none ∧
    { idleHost (.access (.read8 (0x10000 + 4095))) with ibuf := [(4095, 7)] }.ibuf.read 4095 = some 7 ∧
    HostNext (idleHost (.access (.read8 (0x20000 + 8223)))) (.access (.read8 (0x20000 + 8223))) [] ∧
    (idleHost (.access (.read8 (0x20000 + 8223)))).obuf.read 8223 = none ∧
    { idleHost (.access (.read8 (0x20000 + 8223))) with obuf := [(8223, 7)] }.obuf.read 8223 = some 7 ∧
    HostNext (idleHost (.access (.write8 (0x20000 + 8223) 1))) (.access (.write8 (0x20000 + 8223) 1)) [] :=
  ⟨rfl, rfl, rfl, rfl, by decide, by decide, ⟨rfl, rfl, rfl⟩, ⟨rfl, rfl, rfl⟩, rfl, rfl, ⟨rfl, rfl, rfl⟩, rfl, rfl, rfl, rfl, rfl⟩

theorem test_witness_BusyWritesAreHazards :
    (busyHost (.access (.write32 0x34 0))).params.wf = true ∧ (busyHost (.access (.write32 0x34 0))).status.busy = true ∧
    0x34 ∈ rwOffsets ∧ HostNext (busyHost (.access (.write32 0x34 0))) (.access (.write32 0x34 0)) [] ∧
    4095 < (busyHost (.access (.write8 (0x10000 + 4095) 0))).params.ibufBytes ∧
    HostNext (busyHost (.access (.write8 (0x10000 + 4095) 0))) (.access (.write8 (0x10000 + 4095) 0)) [] ∧
    0x3C ∈ roOffsets ∧ HostNext (busyHost (.access (.write32 0x3C 5))) (.access (.write32 0x3C 5)) [] ∧
    8223 < (busyHost (.access (.write8 (0x20000 + 8223) 0))).params.obufBytes ∧
    HostNext (busyHost (.access (.write8 (0x20000 + 8223) 0))) (.access (.write8 (0x20000 + 8223) 0)) [] :=
  ⟨rfl, rfl, by decide, ⟨rfl, rfl, rfl⟩, by decide, ⟨rfl, rfl, rfl⟩, by decide, ⟨rfl, rfl, rfl⟩, by decide, rfl, rfl, rfl⟩

theorem test_witness_HazardStopsUntilReset :
    ((State.reset.recordHostHazard).hazarded = true ∧ ∀ rest, (State.reset.recordHostHazard).host ≠ .reset :: rest) ∧
    ((idleHost .reset).recordHostHazard.hazarded = true ∧ (idleHost .reset).recordHostHazard.host = [.reset]) ∧
    State.reset.hazarded = false :=
  ⟨⟨rfl, fun rest h => by cases h⟩, ⟨rfl, rfl⟩, rfl⟩

theorem test_witness_BusyReadAnswers :
    (busyHost (.access (.read32 0x40))).params.wf = true ∧ (busyHost (.access (.read32 0x40))).status.busy = true ∧
    0x40 ∈ [0x3C, 0x40] ∧ HostNext (busyHost (.access (.read32 0x40))) (.access (.read32 0x40)) [] ∧
    ((0x04, 1#32) ∈ readTable (busyHost (.access (.read32 0x04))) ∧
      HostNext (busyHost (.access (.read32 0x04))) (.access (.read32 0x04)) []) ∧
    (8223 < (busyHost (.access (.read8 (0x20000 + 8223)))).params.obufBytes ∧
      HostNext (busyHost (.access (.read8 (0x20000 + 8223)))) (.access (.read8 (0x20000 + 8223))) []) ∧
    (4095 < (busyHost (.access (.read8 (0x10000 + 4095)))).params.ibufBytes ∧
      HostNext (busyHost (.access (.read8 (0x10000 + 4095)))) (.access (.read8 (0x10000 + 4095))) [] ∧
      (busyHost (.access (.read8 (0x10000 + 4095)))).ibuf.read 4095 = none) ∧
    HostNext { busyHost (.access (.read8 (0x10000 + 4095))) with ibuf := [(4095, 7)] }
      (.access (.read8 (0x10000 + 4095))) [] ∧
    { busyHost (.access (.read8 (0x10000 + 4095))) with ibuf := [(4095, 7)] }.ibuf.read 4095 = some 7 :=
  ⟨rfl, rfl, by decide, ⟨rfl, rfl, rfl⟩, ⟨by decide, rfl, rfl, rfl⟩, ⟨by decide, rfl, rfl, rfl⟩,
    ⟨by decide, ⟨rfl, rfl, rfl⟩, rfl⟩, ⟨rfl, rfl, rfl⟩, rfl⟩

theorem test_witness_ReadsHaveNoSideEffect :
    (IsReadAccess (.read8 0x54) ∧ HostNext (busyHost (.access (.read8 0x54))) (.access (.read8 0x54)) []) ∧
    HostNext (busyHost .waitDone) .waitDone [] ∧ HostNext (idleHost .waitDone) .waitDone [] :=
  ⟨⟨trivial, rfl, rfl, rfl⟩, ⟨rfl, rfl, rfl⟩, rfl, rfl, rfl⟩

theorem test_witness_ResetStepEffect :
    ((busyHost .reset).host = [.reset] ∧ nextAgent (busyHost .reset) = .host) ∧
    (busyHost .reset).recordHostHazard.host = [.reset] ∧ (busyHost .reset).recordHostHazard.hazarded = true :=
  ⟨⟨rfl, rfl⟩, rfl, rfl⟩

/-- The invariant holds with a command in flight, and a step leaves it from there. -/
theorem test_witness_StepKeepsInvariant : (inFlight 7).Inv ∧ ∃ t, step (inFlight 7) = .next t := by
  refine ⟨?_, _, rfl⟩
  constructor
  · decide
  · exact List.Pairwise.nil
  · intro c h; cases h
  · exact List.Pairwise.nil
  · intro c h; cases h
  · decide
  · decide
  · exact fun _ => ⟨rfl, rfl⟩
  · decide
  · decide
  · decide
  · intro a h; exact absurd h (Nat.not_lt_zero a)
  · intro h; cases h

/-- A step that emits, a step of the host. -/
theorem test_witness_EventOutputAppendOnly :
    (∃ t, step { inFlight 1 with bodyLen := 1024 } = .next t ∧ t.events = [.diagOvf 1024]) ∧
    ∃ t, step (busyHost .reset) = .next t := ⟨⟨_, rfl, rfl⟩, _, rfl⟩

theorem test_witness_ModelFaultsStayRecorded :
    ∃ t, step { busyHost .reset with faults := { busFault := true, uninitRead := true, hostHazard := true } } = .next t :=
  ⟨_, rfl⟩

theorem test_witness_OnlyCoreWritesOutputs :
    ((∃ t, step (idleHost (.access (.read32 0x3C))) = .next t) ∧
      nextAgent (idleHost (.access (.read32 0x3C))) = .host ∧
      ∀ rest, (idleHost (.access (.read32 0x3C))).host ≠ .reset :: rest) ∧
    (∃ t, step (inFlight 4) = .next t) ∧ (inFlight 4).hazarded = false ∧ nextAgent (inFlight 4) = .core :=
  ⟨⟨⟨_, rfl⟩, rfl, fun rest h => by cases h⟩, ⟨_, rfl⟩, rfl, rfl⟩

/-- A command in flight while the host waits for it and makes two ignored writes, with host turns before the core's. -/
theorem test_witness_AcceptedCommandCompletes :
    ∃ s : State, s.hazarded = false ∧ s.status.busy = true ∧ (∀ op ∈ s.host, IsQuiet s.params op) ∧
      s.host = [.access (.write32 0x3C 5), .access (.write8 0x20000 0), .waitDone] ∧ s.turns = [.host, .host, .host] := by
  refine ⟨{ busyHost .waitDone with
    host := [.access (.write32 0x3C 5), .access (.write8 0x20000 0), .waitDone], turns := [.host, .host, .host] },
    rfl, rfl, ?_, rfl, rfl⟩
  intro op h
  simp only [List.mem_cons, List.not_mem_nil, or_false] at h
  rcases h with rfl | rfl | rfl
  · show 0x3C ∉ rwOffsets
    decide
  · show ¬(0x10000 ≤ 0x20000 ∧ 0x20000 < 0x10000 + Config.params.ibufBytes)
    decide
  · trivial

/-- CHECKSUM of the one written cell of a longer buffer, and PACK with nothing written. -/
theorem test_witness_LatencyDoesNotChangeOutcome :
    (∃ s u : State, s.hazarded = false ∧ s.status.busy = true ∧ decode s.cmd = .instr .checksum ∧
      (∀ op ∈ s.host, IsQuiet s.params op) ∧ (∀ a, s.ReadsCell .checksum a → s.ibuf.read a ≠ none) ∧
      exec .checksum s = .next u ∧ s.inLen = 9 ∧ s.start = 0 ∧ s.endIdx = 1 ∧ s.host = [.waitDone]) ∧
    ∃ s u : State, s.hazarded = false ∧ s.status.busy = true ∧ decode s.cmd = .instr .pack ∧
      (∀ op ∈ s.host, IsQuiet s.params op) ∧ (∀ a, s.ReadsCell .pack a → s.ibuf.read a ≠ none) ∧
      exec .pack s = .next u ∧ s.inLen = 9 := by
  refine ⟨⟨{ accept 3 (loaded [0x7E#8] 9 0 1) with host := [.waitDone], turns := [.host] }, _, rfl, rfl, rfl, ?_, ?_, rfl,
    rfl, rfl, rfl, rfl⟩, { accept 1 (loaded [] 9 0 9) with turns := [.core] }, _, rfl, rfl, rfl, nofun, nofun, rfl, rfl⟩
  · intro op h
    cases h with
    | head => trivial
    | tail _ h => cases h
  · rintro a ⟨-, -, h⟩
    have h1 : (a : Int) < 1 := h
    have : a = 0 := by omega
    subst this
    decide

end Sys2Proof.Tests
end

section
/-! PROOFS. The statements about the registers, the event output and the model faults (10_state.md), and the lemmas they
need about what one access, one command and one step can do. -/

namespace Sys2Proof.Machine

/-! ### Model faults -/

@[simp] theorem storeReg_faults (r : Reg) (v : Word) (s : State) : (storeReg r v s).faults = s.faults := by
  cases r <;> rfl

/-- A host access records nothing, `BUS_FAULT` or `HOST_HAZARD` (60_exceptions.md R181, R183). -/
theorem access_faults {s t : State} (h : AccessEffect s t) :
    t.faults = s.faults ∨ t.faults = { s.faults with busFault := true } ∨
      t.faults = { s.faults with hostHazard := true } := by
  cases h with
  | busWrite | busRead => exact .inr (.inl rfl)
  | registerHazard | cellHazard => exact .inr (.inr (by simp))
  | _ => exact .inl (by simp)

/-- A command records nothing or `UNINIT_READ` (60_exceptions.md R182). -/
theorem Shape.faults {s t : State} (h : Shape s t) :
    t.faults = s.faults ∨ t.faults = { s.faults with uninitRead := true } := by
  cases h with
  | error => exact .inl rfl
  | scalar a n | bytes a n => simpa using s.afterIbufRead_faults a n

/-- The host's turn records nothing, `BUS_FAULT` or `HOST_HAZARD`; a reset keeps the fault set (10_state.md R52). -/
theorem hostTurn_faults (s : State) :
    (hostTurn s).faults = s.faults ∨ (hostTurn s).faults = { s.faults with busFault := true } ∨
      (hostTurn s).faults = { s.faults with hostHazard := true } := by
  obtain h | ⟨rest, h⟩ | h | ⟨rest, -, h⟩ := hostTurn_cases s
  · exact .inl (by rw [h])
  · simpa using access_faults h
  · exact access_faults h
  · exact .inl (by rw [h]; rfl)

/-- Every step leaves the fault set as it is or adds one fault to it. -/
theorem step_faults {s t : State} (h : step s = .next t) :
    t.faults = s.faults ∨ t.faults = { s.faults with busFault := true } ∨
      t.faults = { s.faults with uninitRead := true } ∨ t.faults = { s.faults with hostHazard := true } := by
  obtain ⟨-, rest, -, rfl⟩ | ⟨-, ⟨-, -, rfl⟩ | ⟨-, -, i, -, h⟩ | ⟨-, -, -, rfl⟩ | ⟨-, rfl⟩⟩ := step_cases h
  · exact .inl rfl
  · exact .inl rfl
  · obtain h | h := (shape_of_exec h).faults
    · exact .inl h
    · exact .inr (.inr (.inl h))
  · exact .inl rfl
  · obtain h | h | h := hostTurn_faults (takeTurn s)
    · exact .inl h
    · exact .inr (.inl h)
    · exact .inr (.inr (.inr h))

/-- Settles O57: a step adds at most one fault to the set and takes none out. -/
theorem modelFaultsStayRecorded : Obligations.ModelFaultsStayRecorded := by
  intro s t h
  obtain h | h | h | h := step_faults h <;> simp +contextual [h]

/-! ### Events -/

theorem overflow_iff (bl : Word) : overflow bl = true ↔ 1024 ≤ bl.toInt := by
  simp [overflow]

/-- PACK emits nothing, or the length that overflowed (40_pack.md R103, R104). -/
theorem execPack_events {s t : State} (h : execPack s = .next t) :
    t.events = s.events ∨ (1024 ≤ s.bodyLen.toInt ∧ t.events = s.events ++ [.diagOvf s.bodyLen]) := by
  cases ho : overflow s.bodyLen
  · rw [execPack_packed (.inl ho)] at h
    cases h
    exact .inl (by simp [ho])
  · cases hr : s.refusing
    · rw [execPack_packed (.inr hr)] at h
      cases h
      exact .inr ⟨(overflow_iff _).1 ho, by simp [ho]⟩
    · rw [execPack_refused ho hr] at h
      cases h
      exact .inl rfl

/-- CHECKSUM emits nothing (30_encoding.md R88). -/
theorem runChecksum_events (s : State) : (runChecksum s).events = s.events := by
  by_cases h : s.RangeFails
  · simp [runChecksum_error (State.rangeError_of_fails h)]
  · simp [runChecksum_ok (State.rangeError_of_not_fails h)]

/-- ESCAPE and UNESCAPE emit nothing (30_encoding.md R88). -/
theorem runTransform_events (f : List Byte → Nat → Nat → List Byte) (s : State) :
    (runTransform f s).events = s.events := by
  by_cases h : s.RangeFails
  · simp [runTransform_error (State.rangeError_of_fails h)]
  · simp [runTransform_ok (State.rangeError_of_not_fails h)]

@[simp] theorem finishFrame_events (body : List Byte) (ovf : Bool) (s : State) :
    (finishFrame body ovf s).events = s.events := rfl

/-- ENCODE_WITH_BODY emits nothing, or the length that overflowed (44_frame.md R152, R157). -/
theorem runEncodeWithBody_events (s : State) :
    (runEncodeWithBody s).events = s.events ∨
      (1024 ≤ s.inLen.toNat ∧ (runEncodeWithBody s).events = s.events ++ [.diagOvf s.inLen]) := by
  by_cases hn : s.params.ibufBytes < s.inCount
  · exact .inl (by simp [runEncodeWithBody_range hn])
  have hn := Nat.not_lt.1 hn
  by_cases ho : 1024 ≤ s.inCount
  · have hlen : 1024 ≤ s.inLen.toNat := ho
    cases hr : s.refusing
    · exact .inr ⟨ho, by rw [runEncodeWithBody_framed hn (.inr hr)]; simp [State.inCount, hlen]⟩
    · exact .inl (by simp [runEncodeWithBody_refused hn ho hr])
  · exact .inl (by rw [runEncodeWithBody_framed hn (.inl (Nat.not_le.1 ho))]; simp [ho])

/-- Only PACK and ENCODE_WITH_BODY emit, one `DIAG_OVF` of a length of 1024 or more. -/
theorem exec_events {i : Instr} {s t : State} (h : exec i s = .next t) :
    t.events = s.events ∨
      (i = .pack ∧ 1024 ≤ s.bodyLen.toInt ∧ t.events = s.events ++ [.diagOvf s.bodyLen]) ∨
      (i = .encodeWithBody ∧ 1024 ≤ s.inLen.toNat ∧ t.events = s.events ++ [.diagOvf s.inLen]) := by
  cases i with
  | pack => exact (execPack_events h).imp_right fun he => .inl ⟨rfl, he⟩
  | buildHeader => cases h; exact .inl rfl
  | checksum => cases h; exact .inl (runChecksum_events s)
  | escape => cases h; exact .inl (runTransform_events _ s)
  | unescape => cases h; exact .inl (runTransform_events _ s)
  | encodeWithBody => cases h; exact (runEncodeWithBody_events s).imp_right fun he => .inr ⟨rfl, he⟩
  | encodeHeaderOnly => cases h; exact .inl rfl

theorem access_events {s t : State} (h : AccessEffect s t) : t.events = s.events := by
  obtain ⟨-, he, -⟩ := access_kept h
  exact he

/-- The host's turn emits nothing, and a reset keeps the list (10_state.md R50). -/
theorem hostTurn_events (s : State) : (hostTurn s).events = s.events := by
  obtain h | ⟨rest, h⟩ | h | ⟨rest, -, h⟩ := hostTurn_cases s
  · rw [h]
  · simpa using access_events h
  · exact access_events h
  · rw [h]; rfl

/-- Settles O56: by the cases of a step, of which only a running command can emit. -/
theorem eventOutputAppendOnly : Obligations.EventOutputAppendOnly := by
  intro s t h
  obtain ⟨-, rest, -, rfl⟩ | ⟨hz, ⟨-, -, rfl⟩ | ⟨ha, hb, i, hd, h⟩ | ⟨-, -, -, rfl⟩ | ⟨-, rfl⟩⟩ := step_cases h
  · exact ⟨[], (List.append_nil _).symm, .inl rfl⟩
  · exact ⟨[], (List.append_nil _).symm, .inl rfl⟩
  · obtain he | ⟨rfl, hl, he⟩ | ⟨rfl, hl, he⟩ := exec_events h
    · exact ⟨[], by simpa using he, .inl rfl⟩
    · exact ⟨_, he, .inr (.inl ⟨⟨hz, ha, hb⟩, hd, hl, rfl⟩)⟩
    · exact ⟨_, he, .inr (.inr ⟨⟨hz, ha, hb⟩, hd, hl, rfl⟩)⟩
  · exact ⟨[], (List.append_nil _).symm, .inl rfl⟩
  · exact ⟨[], by simp [hostTurn_events], .inl rfl⟩

/-! ### Reading a register -/

@[simp] theorem readReg_reply (s : State) (x : Reply) (r : Reg) : readReg (s.reply x) r = readReg s r := by
  cases r <;> rfl

@[simp] theorem readReg_setHost (s : State) (ops : List HostOp) (r : Reg) : readReg (s.setHost ops) r = readReg s r := by
  cases r <;> rfl

@[simp] theorem taken_status (s : State) (rest : List HostOp) : (taken s rest).status = s.status := rfl

@[simp] theorem readReg_taken (s : State) (rest : List HostOp) (r : Reg) : readReg (taken s rest) r = readReg s r := by
  cases r <;> rfl

/-- A host read of a register answers its value, except RESULT and OUT_LEN while busy (10_state.md R38). -/
theorem step_read_register {s : State} {r : Reg} {rest : List HostOp}
    (h : HostNext s (.access (.read32 (regOffset r))) rest) (hr : (s.status.busy && regBusyUnspecified r) = false) :
    step s = .next { taken s rest with replies := s.replies ++ [.word (readReg s r)] } := by
  rw [step_access h, portAccess, read32_status, taken_status, hr, readReg_taken]
  rfl

/-- The constants and CFG, by offset (10_state.md R41, R43, R44). -/
theorem constants_eq_map (s : State) :
    [(0x44, 0x4A380001#32), (0x48, cfgWord s.params), (0x4C, BitVec.ofNat 32 s.params.ibufBytes),
      (0x50, BitVec.ofNat 32 s.params.obufBytes)] =
      [Reg.id, .cfg, .ibufSize, .obufSize].map fun r => (regOffset r, readReg s r) := rfl

/-- Every register below the constants reads 0 after reset (10_state.md R22). -/
theorem readReg_reset {r : Reg} (h : regOffset r ≤ 0x40) : readReg State.reset r = 0 := by
  revert h
  cases r <;> decide

theorem cfgWord_toNat (p : Config.Params) :
    (cfgWord p).toNat = p.symmetricEscape.toNat + 2 * p.escapeChecksum.toNat := by
  have : ∀ sym cs : Bool, (cfgWord ⟨0, 0, sym, cs⟩).toNat = sym.toNat + 2 * cs.toNat := by decide
  exact this _ _

/-- Settles O40: each offset of the statement is a register's, and its read answers the register's value. -/
theorem registersReadAfterReset : Obligations.RegistersReadAfterReset := by
  refine ⟨fun k hk => ?_, fun s a v rest hm h => ?_, cfgWord_toNat, rfl, by decide, rfl, rfl⟩
  · obtain ⟨r, hr⟩ := Option.ne_none_iff_exists'.1 (mt (regAt_eq_none_iff (4 * k)).1 (by omega))
    rw [regAt_eq_some hr, step_read_register (r := r) (rest := []) ⟨rfl, rfl, rfl⟩ rfl]
    have h0 : readReg (State.reset.setHost [.access (.read32 (regOffset r))]) r = 0 := by
      rw [readReg_setHost, readReg_reset (by rw [← regAt_eq_some hr]; omega)]
    exact congrArg (fun w => Host.Outcome.next { State.reset with replies := [.word w] }) h0
  · rw [constants_eq_map, List.mem_map] at hm
    obtain ⟨r, hr, hav⟩ := hm
    cases hav
    exact step_read_register h (by fin_cases hr <;> exact Bool.and_false _)

/-! ### Writing a register -/

/-- The RW registers but CMD: those whose write only stores. -/
def operandRegs : List Reg :=
  [.ctrl, .bodyLen, .encType, .subpkg, .rsvd, .msgType, .bodyProps, .flowId, .phoneHi, .phoneLo, .inLen, .start, .endIdx]

theorem mem_operandRegs (r : Reg) : r ∈ operandRegs ↔ regWritable r = true ∧ r ≠ .cmd := by
  cases r <;> decide

theorem writeTable_eq_map (s : State) (v : Word) :
    writeTable s v = operandRegs.map fun r => (regOffset r, storeReg r v s) := rfl

theorem mem_roOffsets {a : Nat} (h : a ∈ roOffsets) : ∃ r, regWritable r = false ∧ a = regOffset r := by
  have : roOffsets = [Reg.status, .result, .outLen, .id, .cfg, .ibufSize, .obufSize].map regOffset := rfl
  rw [this, List.mem_map] at h
  obtain ⟨r, hr, rfl⟩ := h
  exact ⟨r, by fin_cases hr <;> rfl, rfl⟩

theorem writeReg_readOnly {r : Reg} (h : regWritable r = false) (v : Word) (s : State) : writeReg r v s = s := by
  simp [writeReg, h]

theorem writeReg_operand {r : Reg} {s : State} (hw : regWritable r = true) (hr : r ≠ .cmd) (hb : s.status.busy = false)
    (v : Word) : writeReg r v s = storeReg r v s := by
  simp [writeReg, hw, hr, hb]

theorem writeReg_cmd {s : State} (hb : s.status.busy = false) (v : Word) : writeReg .cmd v s = accept v s := by
  simp [writeReg, regWritable, hb]

/-- A host write of a register, at its offset. -/
theorem step_write_register {s : State} {r : Reg} {v : Word} {rest : List HostOp}
    (h : HostNext s (.access (.write32 (regOffset r) v)) rest) :
    step s = .next ((writeReg r v (taken s rest)).reply .written) := by
  rw [step_access h, portAccess, write32, regAt_offset]

@[simp] theorem storeReg_replies (r : Reg) (v : Word) (s : State) : (storeReg r v s).replies = s.replies := by
  cases r <;> rfl

/-- Truncating a word to its low bits and reading it back is masking it. -/
theorem setWidth_setWidth_eq_and (v : Word) (n : Nat) :
    (v.setWidth n).setWidth 32 = v &&& (BitVec.allOnes n).setWidth 32 := by
  ext i hi
  simp [hi, Bool.and_comm]

/-- An RW register holds the implemented bits of what was stored (10_state.md R23). -/
theorem readReg_storeReg_same {r : Reg} (hw : regWritable r = true) (v : Word) (s : State) :
    readReg (storeReg r v s) r = v &&& implementedBits r := by
  have hfull : v = v &&& 0xFFFFFFFF#32 := (BitVec.and_allOnes (x := v)).symm
  cases r with
  | cmd | bodyLen | encType | rsvd | phoneHi | inLen | start | endIdx => exact hfull
  | ctrl | subpkg => exact setWidth_setWidth_eq_and v 1
  | msgType | bodyProps | flowId | phoneLo => exact setWidth_setWidth_eq_and v 16
  | status | result | outLen | id | cfg | ibufSize | obufSize => cases hw

/-- A store to one register leaves every other as it was (10_state.md R23). -/
theorem readReg_storeReg_of_ne {r r' : Reg} (h : r' ≠ r) (v : Word) (s : State) :
    readReg (storeReg r v s) r' = readReg s r' := by
  cases r <;> cases r' <;> trivial

theorem setWidth_and_not_allOnes {n : Nat} (x : BitVec n) :
    x.setWidth 32 &&& ~~~((BitVec.allOnes n).setWidth 32) = 0#32 := by
  ext i hi
  simpa [hi] using fun h => BitVec.lt_of_getLsbD h

theorem Status.word_unimplemented (st : Status) : st.word &&& ~~~0x000000F7#32 = 0#32 := by
  have : ∀ (b d o : Bool) (e : BitVec 4),
      Status.word { busy := b, done := d, ovf := o, err := e } &&& ~~~0x000000F7#32 = 0#32 := by decide
  exact this _ _ _ _

theorem cfgWord_unimplemented (p : Config.Params) : cfgWord p &&& ~~~0x00000003#32 = 0#32 := by
  have : ∀ sym cs : Bool, cfgWord ⟨0, 0, sym, cs⟩ &&& ~~~0x00000003#32 = 0#32 := by decide
  exact this _ _

/-- The unimplemented bits of every register read 0 (10_state.md R23). -/
theorem readReg_unimplemented (s : State) (r : Reg) : readReg s r &&& ~~~implementedBits r = 0 := by
  cases r with
  | status => exact s.status.word_unimplemented
  | ctrl | subpkg | msgType | bodyProps | flowId | phoneLo | result => exact setWidth_and_not_allOnes _
  | cfg => exact cfgWord_unimplemented s.params
  | cmd | bodyLen | encType | rsvd | phoneHi | inLen | start | endIdx | outLen | id | ibufSize | obufSize =>
    exact BitVec.and_zero

/-- What an idle write of an RW register makes it read (10_state.md R23). -/
theorem readReg_writeReg_same {r : Reg} {s : State} (hw : regWritable r = true) (hb : s.status.busy = false) (v : Word) :
    readReg (writeReg r v s) r = v &&& implementedBits r := by
  by_cases hc : r = .cmd
  · subst hc
    rw [writeReg_cmd hb]
    exact BitVec.and_allOnes.symm
  · rw [writeReg_operand hw hc hb, readReg_storeReg_same hw]

/-- What an idle write of a register leaves alone. -/
theorem writeReg_kept {s : State} (hb : s.status.busy = false) (r : Reg) (v : Word) :
    (writeReg r v s).ibuf = s.ibuf ∧ (writeReg r v s).obuf = s.obuf ∧ (writeReg r v s).events = s.events ∧
      (writeReg r v s).faults = s.faults := by
  cases r <;> simp [writeReg, regWritable, storeReg, hb]

/-- A host write of an RO register is answered and changes nothing, at any time (10_state.md R23). -/
theorem step_write_readOnly {s : State} {r : Reg} {v : Word} {rest : List HostOp}
    (h : HostNext s (.access (.write32 (regOffset r) v)) rest) (hr : regWritable r = false) :
    step s = .next { taken s rest with replies := s.replies ++ [.written] } := by
  rw [step_write_register h, writeReg_readOnly hr]
  rfl

/-- Settles O42: by the register at the written offset, stored to (RW), accepted (CMD) or ignored (RO). -/
theorem registerWriteReadsBack : Obligations.RegisterWriteReadsBack := by
  refine ⟨fun s u a v rest h => ⟨fun hb hm => ?_, fun ha => ?_⟩,
    fun s r v rest h => ⟨fun hw hb => ?_, step_write_readOnly h, readReg_unimplemented s⟩⟩
  · rw [writeTable_eq_map, List.mem_map] at hm
    obtain ⟨r, hr, hau⟩ := hm
    cases hau
    obtain ⟨hw, hc⟩ := (mem_operandRegs r).1 hr
    have hb' : (taken s rest).status.busy = false := hb
    rw [step_write_register h, writeReg_operand hw hc hb', State.reply, storeReg_replies]
    rfl
  · obtain ⟨r, hr, rfl⟩ := mem_roOffsets ha
    exact step_write_readOnly h hr
  · have hb' : (taken s rest).status.busy = false := hb
    refine ⟨_, step_write_register h, ?_, fun r' hne hc => ?_, writeReg_kept hb' r v⟩
    · rw [readReg_reply, readReg_writeReg_same hw hb']
    · rw [readReg_reply, writeReg_operand hw hc hb', readReg_storeReg_of_ne hne, readReg_taken]

end Sys2Proof.Machine
end

section
/-! PROOFS. The statements about the host port and the buffer windows (20_memory.md), and the lemmas they need about one
access to a window and one outside. -/

namespace Sys2Proof.Machine

/-! ### Which accesses are bus errors -/

/-- A 32-bit access is a bus error exactly at an offset of no register (20_memory.md R62, R64). -/
theorem busError_word_iff (p : Config.Params) (a : Nat) : BusError p (.read32 a) ↔ regAt a = none :=
  (regAt_eq_none_iff a).symm

/-- An 8-bit access is a bus error exactly outside both buffer windows (20_memory.md R63, R64). -/
theorem busError_byte_iff (p : Config.Params) (a : Nat) :
    BusError p (.read8 a) ↔ ibufIndex p a = none ∧ obufIndex p a = none :=
  and_congr (ibufIndex_eq_none_iff p a).symm (obufIndex_eq_none_iff p a).symm

/-- The buffer windows do not overlap (00_scope.md R11, 20_memory.md R61). -/
theorem ibufIndex_obuf_window {p : Config.Params} (hp : p.wf = true) (i : Nat) : ibufIndex p (0x20000 + i) = none := by
  have hmax : p.ibufBytes ≤ 32754 := by
    simp only [Config.Params.wf, Bool.and_eq_true, decide_eq_true_eq] at hp
    omega
  rw [ibufIndex_eq_none_iff]
  omega

/-! ### One access outside the windows -/

theorem read32_unmapped {a : Nat} (h : regAt a = none) (s : State) :
    read32 a s = s.recordBusFault.draw.reply (.busErrorWord (Config.unspecWord s.draws)) := by
  rw [read32, h]

theorem write32_unmapped {a : Nat} (h : regAt a = none) (v : Word) (s : State) :
    write32 a v s = s.recordBusFault.reply .busErrorWrite := by
  rw [write32, h]

theorem read8_unmapped {a : Nat} {s : State} (hi : ibufIndex s.params a = none) (ho : obufIndex s.params a = none) :
    read8 a s = s.recordBusFault.draw.reply (.busErrorByte (Config.unspecByte s.draws a)) := by
  rw [read8, hi, ho]

theorem write8_unmapped {a : Nat} {s : State} (hi : ibufIndex s.params a = none) (ho : obufIndex s.params a = none)
    (b : Byte) : write8 a b s = s.recordBusFault.reply .busErrorWrite := by
  rw [write8, hi, ho]

/-- A bus error records `BUS_FAULT`, is answered as one, and can draw a free value: nothing else (20_memory.md R64). -/
theorem portAccess_busError {x : PortAccess} {s : State} (h : BusError s.params x) :
    ∃ n r, portAccess x s =
        { s with faults := { s.faults with busFault := true }, draws := n, replies := s.replies ++ [r] } ∧
      (r = .busErrorWrite ∨ (∃ v, r = .busErrorWord v) ∨ ∃ b, r = .busErrorByte b) := by
  cases x with
  | read32 a => exact ⟨_, _, read32_unmapped ((busError_word_iff s.params a).1 h) s, .inr (.inl ⟨_, rfl⟩)⟩
  | write32 a v => exact ⟨s.draws, _, write32_unmapped ((busError_word_iff s.params a).1 h) v s, .inl rfl⟩
  | read8 a =>
    obtain ⟨hi, ho⟩ := (busError_byte_iff s.params a).1 h
    exact ⟨_, _, read8_unmapped hi ho, .inr (.inr ⟨_, rfl⟩)⟩
  | write8 a b =>
    obtain ⟨hi, ho⟩ := (busError_byte_iff s.params a).1 h
    exact ⟨s.draws, _, write8_unmapped hi ho b, .inl rfl⟩

/-! ### One access inside a window -/

@[simp] theorem replyCell_faults (c : Option Byte) (i : Nat) (s : State) : (replyCell c i s).faults = s.faults := by
  cases c <;> rfl

/-- A register write records at most `HOST_HAZARD` (60_exceptions.md R183). -/
theorem writeReg_busFault (r : Reg) (v : Word) (s : State) :
    (writeReg r v s).faults.busFault = s.faults.busFault := by
  unfold writeReg accept
  split_ifs <;> simp

/-- A cell write records at most `HOST_HAZARD` (60_exceptions.md R183). -/
theorem writeIbuf_busFault (i : Nat) (b : Byte) (s : State) :
    (writeIbuf i b s).faults.busFault = s.faults.busFault := by
  unfold writeIbuf
  split_ifs <;> simp

theorem read32_faults {a : Nat} {r : Reg} (h : regAt a = some r) (s : State) : (read32 a s).faults = s.faults := by
  rw [regAt_eq_some h, read32_status]
  split_ifs <;> rfl

theorem write32_busFault {a : Nat} {r : Reg} (h : regAt a = some r) (v : Word) (s : State) :
    (write32 a v s).faults.busFault = s.faults.busFault := by
  rw [write32, h]
  exact writeReg_busFault r v s

theorem read8_ibuf {s : State} {i : Nat} (hi : i < s.params.ibufBytes) :
    read8 (0x10000 + i) s = replyCell (s.ibuf.read i) i s := by
  rw [read8, ibufIndex_window hi]

/-- A busy read of an OBUF cell answers as if it were unwritten (70_reset_and_hazards.md R196). -/
theorem read8_obuf {s : State} {i : Nat} (hp : s.params.wf = true) (hi : i < s.params.obufBytes) :
    read8 (0x20000 + i) s = replyCell (if s.status.busy then none else s.obuf.read i) i s := by
  rw [read8, ibufIndex_obuf_window hp, obufIndex_window hi]

theorem write8_ibuf {s : State} {i : Nat} (hi : i < s.params.ibufBytes) (b : Byte) :
    write8 (0x10000 + i) b s = (writeIbuf i b s).reply .written := by
  rw [write8, ibufIndex_window hi]

theorem write8_obuf {s : State} {i : Nat} (hp : s.params.wf = true) (hi : i < s.params.obufBytes) (b : Byte) :
    write8 (0x20000 + i) b s = s.reply .written := by
  rw [write8, ibufIndex_obuf_window hp, obufIndex_window hi]

/-- The written cell holds the byte, every other cell what it held. -/
theorem Memory.read_write_single (m : Memory) (i : Nat) (b : Byte) (a : Nat) :
    (m.write i [b]).read a = if a = i then some b else m.read a := by
  rw [Memory.read_write]
  by_cases h : a = i
  · simp [h]
  · rw [if_neg h, if_neg (by rw [List.length_singleton]; omega)]

/-! ### Only a bus error records `BUS_FAULT` -/

/-- An access that is no bus error leaves `BUS_FAULT` as it is (20_memory.md R64). -/
theorem portAccess_busFault {x : PortAccess} {s : State} (h : ¬BusError s.params x) :
    (portAccess x s).faults.busFault = s.faults.busFault := by
  cases x with
  | read32 a =>
    obtain ⟨r, hr⟩ := Option.ne_none_iff_exists'.1 (mt (busError_word_iff s.params a).2 h)
    rw [portAccess, read32_faults hr]
  | write32 a v =>
    obtain ⟨r, hr⟩ := Option.ne_none_iff_exists'.1 (mt (busError_word_iff s.params a).2 h)
    exact write32_busFault hr v s
  | read8 a =>
    have h := mt (busError_byte_iff s.params a).2 h
    rw [portAccess, read8]
    split
    case h_1 | h_2 => rw [replyCell_faults]
    case h_3 hi ho => exact absurd ⟨hi, ho⟩ h
  | write8 a b =>
    have h := mt (busError_byte_iff s.params a).2 h
    rw [portAccess, write8]
    split
    case h_1 i _ => exact writeIbuf_busFault i b s
    case h_2 => rfl
    case h_3 hi ho => exact absurd ⟨hi, ho⟩ h

/-- Settles O44: a step that takes an access is that access, inside a window or outside. -/
theorem busErrorsRecordedAndChangeNothing : Obligations.BusErrorsRecordedAndChangeNothing := by
  intro s x rest h
  rw [step_access h]
  refine ⟨fun hx => ?_, fun hx => ⟨_, rfl, portAccess_busFault (s := taken s rest) hx⟩⟩
  obtain ⟨n, r, hacc, hr⟩ := portAccess_busError (s := taken s rest) hx
  exact ⟨n, r, congrArg _ hacc, hr⟩

/-! ### The step that takes an access to a window -/

theorem step_read_ibuf {s : State} {i : Nat} {rest : List HostOp} (h : HostNext s (.access (.read8 (0x10000 + i))) rest)
    (hi : i < s.params.ibufBytes) : step s = .next (replyCell (s.ibuf.read i) i (taken s rest)) := by
  rw [step_access h, portAccess, read8_ibuf (s := taken s rest) hi]
  rfl

theorem step_read_obuf {s : State} {i : Nat} {rest : List HostOp} (h : HostNext s (.access (.read8 (0x20000 + i))) rest)
    (hp : s.params.wf = true) (hi : i < s.params.obufBytes) :
    step s = .next (replyCell (if s.status.busy then none else s.obuf.read i) i (taken s rest)) := by
  rw [step_access h, portAccess, read8_obuf (s := taken s rest) hp hi]
  rfl

theorem step_write_ibuf {s : State} {i : Nat} {b : Byte} {rest : List HostOp}
    (h : HostNext s (.access (.write8 (0x10000 + i) b)) rest) (hi : i < s.params.ibufBytes) :
    step s = .next ((writeIbuf i b (taken s rest)).reply .written) := by
  rw [step_access h, portAccess, write8_ibuf (s := taken s rest) hi]

/-- A write to OBUF is answered and changes nothing, at any time (20_memory.md R63). -/
theorem step_write_obuf {s : State} {i : Nat} {b : Byte} {rest : List HostOp}
    (h : HostNext s (.access (.write8 (0x20000 + i) b)) rest) (hp : s.params.wf = true) (hi : i < s.params.obufBytes) :
    step s = .next { taken s rest with replies := s.replies ++ [.written] } := by
  rw [step_access h, portAccess, write8_obuf (s := taken s rest) hp hi]
  rfl

/-- What a read of a buffer cell answers: its byte, or some byte where it is unwritten (20_memory.md R63). -/
theorem step_replyCell_answers {s u : State} {cell : Option Byte} {i : Nat} (h : step s = .next (replyCell cell i u)) :
    (∀ c, cell = some c → step s = .next { u with replies := u.replies ++ [.byte c] }) ∧
    (cell = none → ∃ c n, step s = .next { u with replies := u.replies ++ [.byte c], draws := n }) := by
  rw [h]
  refine ⟨?_, ?_⟩
  · rintro c rfl
    rfl
  · rintro rfl
    exact ⟨_, _, rfl⟩

/-- Settles O45: each of the four accesses by the cell it reaches in its window. -/
theorem bufferWindowAccesses : Obligations.BufferWindowAccesses := by
  intro s i b rest hp hb
  refine ⟨fun hi h => ?_, fun hi h => step_replyCell_answers (step_read_ibuf h hi), fun hi h => ?_,
    fun hi h => step_write_obuf h hp hi⟩
  · have hw : writeIbuf i b (taken s rest) = (taken s rest).setIbuf i b := if_neg (by simp [hb])
    exact ⟨_, by rw [step_write_ibuf h hi, hw], Memory.read_write_single s.ibuf i b, rfl⟩
  · have hr := step_read_obuf h hp hi
    rw [hb, if_neg Bool.false_ne_true] at hr
    exact step_replyCell_answers hr

end Sys2Proof.Machine
end

section
/-! PROOFS. The statements about the command word (30_encoding.md R80 to R83), and the lemmas they need about its two fields
and the decoder. -/

namespace Sys2Proof

/-! ### The fields as arithmetic -/

theorem zField_eq_zero_iff (w : Word) : zField w = 0#28 ↔ w.toNat / 16 = 0 := by
  have hw := w.isLt
  have hz : (zField w).toNat = w.toNat / 16 := by
    rw [zField, BitVec.extractLsb'_toNat, Nat.shiftRight_eq_div_pow]
    omega
  rw [← BitVec.toNat_inj, hz, BitVec.toNat_zero]

theorem opField_toNat (w : Word) : (opField w).toNat = w.toNat % 16 := by
  rw [opField, BitVec.extractLsb'_toNat, Nat.shiftRight_zero]

/-! ### The decoder -/

theorem decodeOp_eq_none_iff (op : BitVec 4) : decodeOp op = none ↔ ¬(1 ≤ op.toNat ∧ op.toNat ≤ 7) := by
  revert op
  decide

theorem decode_of_zField_ne_zero {w : Word} (hz : zField w ≠ 0#28) : decode w = .illegal .nonzeroZ := if_neg hz

theorem decode_of_decodeOp_eq_none {w : Word} (hz : zField w = 0#28) (hop : decodeOp (opField w) = none) :
    decode w = .illegal .noSuchOp := by
  simp [decode, hz, hop]

theorem decode_of_decodeOp_eq_some {w : Word} {i : Instr} (hz : zField w = 0#28) (hop : decodeOp (opField w) = some i) :
    decode w = .instr i := by
  simp [decode, hz, hop]

/-- The decoder reads nothing but the opcode, once `Z` is zero (30_encoding.md R80, R81). -/
theorem decode_eq_instr_iff (w : Word) (i : Instr) :
    decode w = .instr i ↔ zField w = 0#28 ∧ decodeOp (opField w) = some i := by
  by_cases hz : zField w = 0#28
  · cases hop : decodeOp (opField w) with
    | none => simp [decode_of_decodeOp_eq_none hz hop]
    | some j => simp [decode_of_decodeOp_eq_some hz hop, hz]
  · simp [decode_of_zField_ne_zero hz, hz]

/-- The encoding laws of the single commands, for any command. -/
theorem encoding_statement (i : Instr) : Laws.Encoding.Statement i :=
  match i with
  | .pack => Laws.Encoding.pack
  | .buildHeader => Laws.Encoding.buildHeader
  | .checksum => Laws.Encoding.checksum
  | .escape => Laws.Encoding.escape
  | .unescape => Laws.Encoding.unescape
  | .encodeWithBody => Laws.Encoding.encodeWithBody
  | .encodeHeaderOnly => Laws.Encoding.encodeHeaderOnly

theorem decode_encode (i : Instr) : decode (encode i) = .instr i := by
  obtain ⟨-, hdecode, -, -⟩ := encoding_statement i
  exact hdecode

/-- Some command is decoded exactly when `Z` is zero and the opcode map has an entry, which is at the opcodes 1 to 7. -/
theorem exists_decode_eq_instr_iff (w : Word) :
    (∃ i, decode w = .instr i) ↔ w.toNat / 16 = 0 ∧ 1 ≤ w.toNat % 16 ∧ w.toNat % 16 ≤ 7 := by
  have hop : (∃ i, decodeOp (opField w) = some i) ↔ 1 ≤ w.toNat % 16 ∧ w.toNat % 16 ≤ 7 := by
    rw [← Option.ne_none_iff_exists', ne_eq, decodeOp_eq_none_iff, not_not, opField_toNat]
  simp only [decode_eq_instr_iff, exists_and_left, hop, zField_eq_zero_iff]

/-! ### The legality check -/

theorem legalWord_iff (w : Word) :
    legalWord w = true ↔ w.toNat / 16 = 0 ∧ 1 ≤ w.toNat % 16 ∧ w.toNat % 16 ≤ 7 := by
  have hfields : legalWord w = (zField w == 0#28 && 1#4 ≤ opField w && opField w ≤ 7#4) := rfl
  simp [hfields, BitVec.le_def, zField_eq_zero_iff, opField_toNat, and_assoc]

/-! ### The statements -/

/-- Settles O2: the decoder and the legality check have the same two fields, read as arithmetic. -/
theorem decoderTakesExactlyLegalWords : Obligations.DecoderTakesExactlyLegalWords :=
  fun w => ⟨exists_decode_eq_instr_iff w, legalWord_iff w⟩

/-- Settles O3: the seven words are the commands' own, nine have no entry in the opcode map, and three fail at `Z`. -/
theorem sevenCommandWords : Obligations.SevenCommandWords := by
  refine ⟨decode_encode .pack, decode_encode .buildHeader, decode_encode .checksum, decode_encode .escape,
    decode_encode .unescape, decode_encode .encodeWithBody, decode_encode .encodeHeaderOnly,
    ?_, ?_, ?_, ?_, ?_, ?_, ?_, ?_, ?_, ?nonzeroZ⟩
  case nonzeroZ =>
    exact ⟨decode_of_zField_ne_zero (by decide), decode_of_zField_ne_zero (by decide),
      decode_of_zField_ne_zero (by decide)⟩
  all_goals exact decode_of_decodeOp_eq_none (by decide) (by decide)

end Sys2Proof
end

section
/-! PROOFS. The statements about the bitfield packer and PACK (40_pack.md), and the lemmas they need about one packed
field and about the two ways PACK ends. -/

namespace Sys2Proof.Machine

/-! ### The packed fields -/

/-- The OR with a term shifted past the bits of the other is the sum (40_pack.md R102). -/
theorem or_shiftLeft_eq_add {a k : Nat} (h : a < 2 ^ k) (b : Nat) : a ||| b <<< k = a + b * 2 ^ k := by
  rw [Nat.or_comm, ← Nat.shiftLeft_add_eq_or_of_lt h, Nat.shiftLeft_eq, Nat.add_comm]

/-- A field of `v` bits shifted left by `k` loses no bit in a word of `v + k` bits or more. -/
theorem toNat_setWidth_shiftLeft {v w k : Nat} (x : BitVec v) (h : v + k ≤ w) :
    (x.setWidth w <<< k).toNat = x.toNat <<< k := by
  have hx : x.toNat < 2 ^ v := x.isLt
  have hk : x.toNat <<< k < 2 ^ w :=
    calc x.toNat <<< k = x.toNat * 2 ^ k := Nat.shiftLeft_eq ..
      _ < 2 ^ v * 2 ^ k := Nat.mul_lt_mul_of_pos_right hx (Nat.two_pow_pos k)
      _ = 2 ^ (v + k) := (Nat.pow_add 2 v k).symm
      _ ≤ 2 ^ w := Nat.pow_le_pow_right Nat.two_pos h
  rw [BitVec.toNat_shiftLeft, BitVec.toNat_setWidth_of_le (by omega), Nat.mod_eq_of_lt hk]

/-- The packed value is the sum of its four terms, since the fields do not overlap (40_pack.md R102). -/
theorem packValue_toNat (bl et : Word) (sp : BitVec 1) (rs : Word) :
    (packValue bl et sp rs).toNat =
      bl.toNat % 2 ^ 10 + et.toNat % 2 ^ 3 * 2 ^ 10 + sp.toNat * 2 ^ 13 + rs.toNat % 2 ^ 2 * 2 ^ 14 := by
  have hsp : sp.toNat < 2 := sp.isLt
  have h10 : bl.toNat % 2 ^ 10 < 2 ^ 10 := Nat.mod_lt _ (by decide)
  have h13 : bl.toNat % 2 ^ 10 + et.toNat % 2 ^ 3 * 2 ^ 10 < 2 ^ 13 := by omega
  have h14 : bl.toNat % 2 ^ 10 + et.toNat % 2 ^ 3 * 2 ^ 10 + sp.toNat * 2 ^ 13 < 2 ^ 14 := by omega
  rw [packValue, BitVec.toNat_or, BitVec.toNat_or, BitVec.toNat_or,
    toNat_setWidth_shiftLeft _ (by decide), toNat_setWidth_shiftLeft _ (by decide),
    toNat_setWidth_shiftLeft _ (by decide), BitVec.toNat_setWidth_of_le (by decide)]
  simp only [BitVec.extractLsb'_toNat, Nat.shiftRight_zero]
  rw [or_shiftLeft_eq_add h10, or_shiftLeft_eq_add h13, or_shiftLeft_eq_add h14]

/-- A field of `n` bits from bit `k` on, as a quotient and a remainder. -/
theorem extractLsb'_eq_of_toNat {w k n : Nat} {x : BitVec w} {y : BitVec n} (h : x.toNat / 2 ^ k % 2 ^ n = y.toNat) :
    x.extractLsb' k n = y :=
  BitVec.eq_of_toNat_eq (by rw [BitVec.extractLsb'_toNat, Nat.shiftRight_eq_div_pow, h])

/-- Settles O17: each field is read off the sum of the four terms. -/
theorem packedFields : Obligations.PackedFields := by
  intro bl et sp rs
  have hsum := packValue_toNat bl et sp rs
  have hsp : sp.toNat < 2 := sp.isLt
  refine ⟨extractLsb'_eq_of_toNat ?_, extractLsb'_eq_of_toNat ?_, extractLsb'_eq_of_toNat ?_,
    extractLsb'_eq_of_toNat ?_, hsum⟩
  all_goals
    simp only [hsum, BitVec.extractLsb'_toNat, Nat.shiftRight_zero]
    omega

/-! ### The two ways PACK ends -/

theorem diagnose_eq (ovf : Bool) (v : Word) (s : State) :
    diagnose ovf v s = { s with events := s.events ++ if ovf then [.diagOvf v] else [] } := by
  cases ovf
  · simp [diagnose]
  · rfl

/-- Settles O16: PACK is refused exactly on an overflow under `OVF_POLICY = 1`. -/
theorem packEffect : Obligations.PackEffect := by
  refine fun s => ⟨fun h => ?_, fun ho hc => ?_⟩
  · have hok : overflow s.bodyLen = false ∨ s.refusing = false :=
      h.imp (fun hlt => Bool.eq_false_iff.2 (mt (overflow_iff _).1 (Int.not_le.2 hlt))) s.refusing_eq_false_iff.2
    refine (execPack_packed hok).trans ?_
    simp only [diagnose_eq, overflow_iff]
    rfl
  · exact execPack_refused ((overflow_iff _).2 ho) (s.refusing_eq_true_iff.2 hc)

/-- Settles O18: in each case of PACK's effect the answer is written in the five operands. -/
theorem packReadsOnlyItsOperands : Obligations.PackReadsOnlyItsOperands := by
  intro s s' hbl het hsp hrs hc
  obtain ⟨hpacked, hrefused⟩ := packEffect s
  obtain ⟨hpacked', hrefused'⟩ := packEffect s'
  rw [hbl, het, hsp, hrs, hc] at hpacked
  rw [hbl, hc] at hrefused
  by_cases h : s'.bodyLen.toInt < 1024 ∨ s'.ctrl = 0
  · exact ⟨_, _, _, hpacked h, hpacked' h, rfl, rfl, rfl, fun _ => rfl⟩
  · obtain ⟨ho, hne⟩ := not_or.1 h
    have hone : s'.ctrl = 1 :=
      s'.refusing_eq_true_iff.1 (Bool.eq_true_of_not_eq_false (mt s'.refusing_eq_false_iff.1 hne))
    exact ⟨_, _, [], hrefused (Int.not_lt.1 ho) hone, hrefused' (Int.not_lt.1 ho) hone, rfl,
      (List.append_nil _).symm, (List.append_nil _).symm, fun herr => absurd herr (show 3#4 ≠ 0 by decide)⟩

end Sys2Proof.Machine
end

section
/-! PROOFS. The statement about BUILD_HEADER (41_header.md), and the lemmas it needs about the header bytes and about a
command's byte output. -/

namespace Sys2Proof.Machine

/-- The header layout in the registers' bytes (41_header.md R113, with the phone bytes of 10_state.md R33). -/
theorem buildHeader_phone (s : State) (mt bp fid : Half) :
    buildHeader s.phone mt bp fid =
      [mt.extractLsb' 8 8, mt.extractLsb' 0 8, bp.extractLsb' 8 8, bp.extractLsb' 0 8,
       s.phoneHi.extractLsb' 24 8, s.phoneHi.extractLsb' 16 8, s.phoneHi.extractLsb' 8 8, s.phoneHi.extractLsb' 0 8,
       s.phoneLo.extractLsb' 8 8, s.phoneLo.extractLsb' 0 8, fid.extractLsb' 8 8, fid.extractLsb' 0 8] := rfl

/-- A command that writes the bytes `out` leaves them in OBUF from cell 0, and every other cell as it was
(10_state.md R47). -/
theorem outputIs_complete_setOutput (s : State) (out : List Byte) (v : BitVec 24) (e : BitVec 4) (ovf : Bool) :
    OutputIs s (complete e ovf ((s.setOutput out).setResult v)) out :=
  s.setOutput_read out

/-- A command that writes `out` and RESULT changes OBUF, OUT_LEN, RESULT and STATUS, and nothing else
(30_encoding.md R88). -/
theorem complete_setOutput_eq (s : State) (out : List Byte) (v : BitVec 24) (e : BitVec 4) (ovf : Bool) :
    complete e ovf ((s.setOutput out).setResult v) =
      { completed s e ovf with
        result := v, outLen := BitVec.ofNat 32 out.length, obuf := s.obuf.write 0 out } := rfl

/-- Settles O19: BUILD_HEADER is a byte output of the 12 header bytes, with RESULT 0. -/
theorem buildHeaderEffect : Obligations.BuildHeaderEffect := by
  intro s
  rw [← buildHeader_phone]
  refine ⟨_, rfl, outputIs_complete_setOutput s _ 0 0 false, ?_⟩
  rw [complete_setOutput_eq, length_buildHeader]
  rfl

end Sys2Proof.Machine
end

section
/-! PROOFS. The statements about the checksum and CHECKSUM (42_checksum.md), and the lemmas they need: the checksum of one
byte put in front, and of two strings joined. -/

namespace Sys2Proof.Machine

/-! ### The checksum along the string -/

@[simp] theorem checksum_nil : checksum [] = 0#8 := rfl

/-- The XOR of the bytes may start at any of them, since XOR is associative. -/
theorem checksum_cons (b : Byte) (s : List Byte) : checksum (b :: s) = b ^^^ checksum s := by
  rw [checksum, List.foldl_cons, BitVec.xor_comm]
  exact List.foldl_assoc

theorem checksum_append (s t : List Byte) : checksum (s ++ t) = checksum s ^^^ checksum t := by
  induction s with
  | nil => simp
  | cons b s ih => rw [List.cons_append, checksum_cons, checksum_cons, ih, BitVec.xor_assoc]

theorem checksum_perm {s p : List Byte} (h : s.Perm p) : checksum s = checksum p :=
  h.foldl_eq 0

/-- A string with its own checksum behind it cancels (42_checksum.md R122). -/
theorem checksum_append_self (s : List Byte) : checksum (s ++ [checksum s]) = 0 := by
  rw [checksum_append, checksum_cons, checksum_nil, BitVec.xor_zero]
  exact BitVec.xor_self

/-- Each byte that has bit `k` flips it in the checksum (42_checksum.md R122). -/
theorem checksum_getLsbD (s : List Byte) (k : Nat) :
    (checksum s).getLsbD k = decide ((s.countP fun b => b.getLsbD k) % 2 = 1) := by
  induction s with
  | nil => simp
  | cons b s ih =>
    rw [checksum_cons, BitVec.getLsbD_xor, ih, List.countP_cons]
    cases b.getLsbD k with
    | false => simp
    | true =>
      have hodd (n : Nat) : (n + 1) % 2 = 1 ↔ ¬n % 2 = 1 := by omega
      rw [Bool.true_xor, if_pos rfl, decide_eq_decide.2 (hodd _), decide_not]

/-- Settles O21: order independence is that of the fold; the other laws follow the string byte by byte. -/
theorem checksumLaws : Obligations.ChecksumLaws :=
  ⟨fun _ _ => checksum_perm, checksum_append, checksum_append_self, checksum_getLsbD⟩

/-! ### The two ways CHECKSUM ends -/

/-- CHECKSUM over written cells changes STATUS and RESULT, and nothing else (42_checksum.md R121). -/
theorem runChecksum_written {s : State} {n st en : Nat} {bs : List Byte} (hr : s.RangeIs n st en)
    (hlen : bs.length = en - st) (hbs : s.Holds st bs) :
    runChecksum s = { completed s 0 false with result := (checksum bs).setWidth 24 } := by
  obtain ⟨hok, -, hst, hen⟩ := hr.spec
  rw [runChecksum_ok hok, hst, hen, ← hlen, State.ibufBytes_of_holds hbs,
    State.afterIbufRead_of_written (State.ibufUnwritten_of_holds hbs)]
  rfl

/-- Settles O20: the range check decides between a result and `ERR_RANGE`. -/
theorem checksumEffect : Obligations.ChecksumEffect := by
  refine fun s => ⟨fun n st en bs hr hlen hbs => ?_, fun hf => ?_⟩
  · exact congrArg Host.Outcome.next (runChecksum_written hr hlen hbs)
  · exact congrArg Host.Outcome.next (runChecksum_error (State.rangeError_of_fails hf))

end Sys2Proof.Machine
end

section
/-! PROOFS. The statements about the byte-stuffing codec, ESCAPE and UNESCAPE (43_escape.md), and the lemmas they need:
how long an escaped and an unescaped range are, what unescaping gives back, and a buffer cut into the range and its
outside. -/

namespace Sys2Proof.Machine

/-! ### The escaped range -/

/-- A byte that the table does not name stays one byte (43_escape.md R130). -/
theorem escByte_copied {p : Config.Params} {b : Byte} (hd : b ≠ delim) (hm : p.symmetricEscape = true → b ≠ mark) :
    escByte p b = [b] := by
  rw [escByte, if_neg hd, if_neg fun h => hm h.2 h.1]

theorem delim_notMem_escByte (p : Config.Params) (b : Byte) : delim ∉ escByte p b := by
  unfold escByte
  split_ifs with hd hm
  · decide
  · decide
  · exact fun h => hd (List.mem_singleton.1 h).symm

/-- Delimiter freedom (43_escape.md R137). -/
theorem delim_notMem_escRange (p : Config.Params) (r : List Byte) : delim ∉ escRange p r := by
  intro h
  obtain ⟨b, -, hb⟩ := List.mem_flatMap.1 h
  exact delim_notMem_escByte p b hb

/-- A range without special bytes is left as it is (43_escape.md R137). -/
theorem escRange_copied {p : Config.Params} {r : List Byte} (hd : delim ∉ r)
    (hm : p.symmetricEscape = true → mark ∉ r) : escRange p r = r := by
  induction r with
  | nil => exact escRange_nil p
  | cons b r ih =>
    rw [List.mem_cons, not_or] at hd
    have hm' (h : p.symmetricEscape = true) : b ≠ mark ∧ mark ∉ r :=
      (not_or.1 (mt List.mem_cons.2 (hm h))).imp_left Ne.symm
    rw [escRange_cons, escByte_copied (Ne.symm hd.1) fun h => (hm' h).1, ih hd.2 fun h => (hm' h).2,
      List.singleton_append]

theorem escapeGrowth_cons (p : Config.Params) (b : Byte) (r : List Byte) :
    escapeGrowth p (b :: r) = escapeGrowth p [b] + escapeGrowth p r := by
  unfold escapeGrowth
  rw [← List.singleton_append, List.count_append, List.count_append]
  split <;> omega

theorem length_escByte (p : Config.Params) (b : Byte) : (escByte p b).length = 1 + escapeGrowth p [b] := by
  by_cases hd : b = delim
  · subst hd
    have hgrow : escapeGrowth p [delim] = 1 := by simp [escapeGrowth, delim]
    rw [escByte_delim, hgrow]
    rfl
  · by_cases hm : b = mark
    · subst hm
      have hgrow : escapeGrowth p [mark] = if p.symmetricEscape then 1 else 0 := by simp [escapeGrowth, mark]
      rw [escByte_mark, hgrow]
      split <;> rfl
    · have hdc : [b].count 0x7E#8 = 0 := List.count_eq_zero.2 fun h => hd (List.mem_singleton.1 h).symm
      have hmc : [b].count 0x7D#8 = 0 := List.count_eq_zero.2 fun h => hm (List.mem_singleton.1 h).symm
      simp [escByte_other hd hm, escapeGrowth, hdc, hmc]

/-- The exact length of an escaped range (43_escape.md R135). -/
theorem length_escRange (p : Config.Params) (r : List Byte) :
    (escRange p r).length = r.length + escapeGrowth p r := by
  induction r with
  | nil => simp [escRange_nil, escapeGrowth]
  | cons b r ih =>
    rw [escRange_cons, List.length_append, ih, length_escByte, List.length_cons, escapeGrowth_cons p b r]
    omega

/-! ### The unescaped range -/

/-- A byte that starts no pair is copied (43_escape.md R139). -/
theorem unescRange_of_no_pair {b : Byte} {t : List Byte}
    (h : ¬(b = mark ∧ (t.head? = some 0x01#8 ∨ t.head? = some 0x02#8))) : unescRange (b :: t) = b :: unescRange t :=
  unescRange_copy fun hb => not_or.1 (not_and.1 h hb)

/-- A pair at the front becomes one byte (43_escape.md R139). -/
theorem unescRange_of_pair {b c : Byte} (hb : b = mark) (hc : c = 0x01#8 ∨ c = 0x02#8) (t : List Byte) :
    ∃ x, unescRange (b :: c :: t) = x :: unescRange t := by
  subst hb
  rcases hc with rfl | rfl
  · exact ⟨mark, unescRange_mark_one t⟩
  · exact ⟨delim, unescRange_mark_two t⟩

/-- What follows the bytes is unescaped apart from them, unless it can complete a pair. -/
theorem unescRange_append (r : List Byte) {t : List Byte} (h : t.head? ≠ some 0x01#8 ∧ t.head? ≠ some 0x02#8) :
    unescRange (r ++ t) = unescRange r ++ unescRange t := by
  fun_induction unescRange r with
  | case1 => rfl
  | case2 b => exact unescRange_copy fun _ => h
  | case3 b c r hp ih =>
    obtain ⟨rfl, rfl⟩ := hp
    exact (unescRange_mark_one _).trans (congrArg _ ih)
  | case4 b c r _ hp ih =>
    obtain ⟨rfl, rfl⟩ := hp
    exact (unescRange_mark_two _).trans (congrArg _ ih)
  | case5 b c r hone htwo ih =>
    refine (unescRange_copy fun hb => ?_).trans (congrArg _ ih)
    simpa [hb] using And.intro hone htwo

/-- Each pair consumed shortens the output by one byte (43_escape.md R144). -/
theorem length_unescRange_add_pairsConsumed (r : List Byte) :
    (unescRange r).length + pairsConsumed r = r.length := by
  fun_induction pairsConsumed r with
  | case1 => rfl
  | case2 => rfl
  | case3 b c t h ih =>
    obtain ⟨x, hx⟩ := unescRange_of_pair h.1 h.2 t
    simp only [hx, List.length_cons]
    omega
  | case4 b c t h ih =>
    rw [unescRange_of_no_pair (by simpa [mark] using h), List.length_cons]
    exact (Nat.succ_add _ _).trans (congrArg Nat.succ ih)

/-- The pairs consumed do not overlap (43_escape.md R139). -/
theorem two_mul_pairsConsumed_le (r : List Byte) : 2 * pairsConsumed r ≤ r.length := by
  fun_induction pairsConsumed r with
  | case1 => exact Nat.zero_le _
  | case2 => exact Nat.zero_le _
  | case3 b c t _ ih => simp only [List.length_cons]; omega
  | case4 b c t _ ih => exact Nat.le_succ_of_le ih

/-! ### Ranges that hold a pair -/

theorem not_hasPair_nil : ¬HasPair [] := by
  rintro ⟨u, v, c, h, -⟩
  simp at h

/-- A pair stands at the front or further on. -/
theorem hasPair_cons (b : Byte) (t : List Byte) :
    HasPair (b :: t) ↔ (b = mark ∧ (t.head? = some 0x01#8 ∨ t.head? = some 0x02#8)) ∨ HasPair t := by
  constructor
  · rintro ⟨u, v, c, h, hc⟩
    cases u with
    | nil =>
      obtain ⟨rfl, rfl⟩ := List.cons.inj h
      exact .inl ⟨rfl, hc.imp (congrArg some) (congrArg some)⟩
    | cons x u => exact .inr ⟨u, v, c, (List.cons.inj h).2, hc⟩
  · rintro (⟨rfl, hc⟩ | ⟨u, v, c, rfl, hc⟩)
    · simp only [List.head?_eq_some_iff] at hc
      obtain ⟨v, rfl⟩ | ⟨v, rfl⟩ := hc
      · exact ⟨[], v, _, rfl, .inl rfl⟩
      · exact ⟨[], v, _, rfl, .inr rfl⟩
    · exact ⟨b :: u, v, c, rfl, hc⟩

theorem not_hasPair_of_mark_notMem {r : List Byte} (h : mark ∉ r) : ¬HasPair r := by
  rintro ⟨u, v, c, rfl, -⟩
  exact h (List.mem_append_right u List.mem_cons_self)

/-- Unescaping leaves exactly the ranges without a pair as they are (43_escape.md R146). -/
theorem unescRange_eq_self_iff (r : List Byte) : unescRange r = r ↔ ¬HasPair r := by
  induction r with
  | nil => exact iff_of_true unescRange_nil not_hasPair_nil
  | cons b t ih =>
    rw [hasPair_cons]
    by_cases h : b = mark ∧ (t.head? = some 0x01#8 ∨ t.head? = some 0x02#8)
    · refine iff_of_false (fun he => ?_) (not_not_intro (.inl h))
      obtain ⟨c, v, hc, rfl⟩ : ∃ c v, (c = 0x01#8 ∨ c = 0x02#8) ∧ t = c :: v := by
        simpa [List.head?_eq_some_iff] using h.2
      obtain ⟨x, hx⟩ := unescRange_of_pair h.1 hc v
      have hshort := length_unescRange_le v
      have hsame := congrArg List.length (hx.symm.trans he)
      simp only [List.length_cons] at hsame
      omega
    · rw [unescRange_of_no_pair h, List.cons_inj_right, ih, or_iff_right h]

/-! ### Unescaping what was escaped -/

/-- Under the symmetric table each byte comes back by itself (43_escape.md R145). -/
theorem unescRange_escByte_append_symmetric {p : Config.Params} (hp : p.symmetricEscape = true) (b : Byte)
    (t : List Byte) : unescRange (escByte p b ++ t) = b :: unescRange t := by
  by_cases hd : b = delim
  · rw [hd, escByte_delim]
    exact unescRange_mark_two t
  · by_cases hm : b = mark
    · rw [hm, escByte_mark, if_pos hp]
      exact unescRange_mark_one t
    · rw [escByte_other hd hm]
      exact unescRange_not_mark hm

/-- The symmetric table loses nothing (43_escape.md R145). -/
theorem unescRange_escRange_symmetric {p : Config.Params} (hp : p.symmetricEscape = true) (r : List Byte) :
    unescRange (escRange p r) = r := by
  induction r with
  | nil => exact unescRange_nil
  | cons b r ih => rw [escRange_cons, unescRange_escByte_append_symmetric hp, ih]

/-- An escaped range begins with its first byte, or with a marker in its place. -/
theorem head?_escRange_cons_append (p : Config.Params) (b : Byte) (r t : List Byte) :
    (escRange p (b :: r) ++ t).head? = some (if b = delim then mark else b) := by
  rw [escRange_cons, List.append_assoc, escByte]
  split_ifs with hd hm
  · rfl
  · exact congrArg some hm.1.symm
  · rfl

theorem escRange_cons_asymmetric {p : Config.Params} (hp : p.symmetricEscape = false) {b : Byte} (hb : b ≠ delim)
    (r : List Byte) : escRange p (b :: r) = b :: escRange p r := by
  rw [escRange_cons, escByte_copied hb fun h => absurd h (Bool.eq_false_iff.1 hp), List.singleton_append]

/-- Under the asymmetric table unescaping undoes the pairs of the delimiters and finds the marker pairs that stood in
the range before, as if it had not been escaped; so also with bytes behind it (43_escape.md R146). -/
theorem unescRange_escRange_append_asymmetric {p : Config.Params} (hp : p.symmetricEscape = false) (r t : List Byte) :
    unescRange (escRange p r ++ t) = unescRange (r ++ t) := by
  have hdelim (r : List Byte) : unescRange (escRange p (delim :: r) ++ t) = delim :: unescRange (escRange p r ++ t) :=
    unescRange_mark_two _
  have hpair {c : Byte} (hc : c ≠ delim) (r : List Byte) : escRange p (mark :: c :: r) = mark :: c :: escRange p r := by
    rw [escRange_cons_asymmetric hp (by decide), escRange_cons_asymmetric hp hc]
  fun_induction unescRange r with
  | case1 => rfl
  | case2 b =>
    by_cases hb : b = delim
    · subst hb
      exact (hdelim []).trans (unescRange_not_mark (by decide)).symm
    · rw [escRange_cons_asymmetric hp hb, escRange_nil]
  | case3 b c r h ih =>
    obtain ⟨rfl, rfl⟩ := h
    rw [hpair (by decide)]
    exact (unescRange_mark_one _).trans ((congrArg _ ih).trans (unescRange_mark_one _).symm)
  | case4 b c r _ h ih =>
    obtain ⟨rfl, rfl⟩ := h
    rw [hpair (by decide)]
    exact (unescRange_mark_two _).trans ((congrArg _ ih).trans (unescRange_mark_two _).symm)
  | case5 b c r hone htwo ih =>
    by_cases hb : b = delim
    · subst hb
      rw [hdelim, ih]
      exact (unescRange_not_mark (by decide)).symm
    · have hcopied (hm : b = mark) : c ≠ 0x01#8 ∧ c ≠ 0x02#8 :=
        ⟨fun h => hone ⟨hm, h⟩, fun h => htwo ⟨hm, h⟩⟩
      rw [escRange_cons_asymmetric hp hb, List.cons_append, unescRange_copy, ih]
      · exact (unescRange_copy fun hm => by simpa using hcopied hm).symm
      · intro hm
        rw [head?_escRange_cons_append]
        split
        · decide
        · simpa using hcopied hm

theorem unescRange_escRange_asymmetric {p : Config.Params} (hp : p.symmetricEscape = false) (r : List Byte) :
    unescRange (escRange p r) = unescRange r := by
  simpa using unescRange_escRange_append_asymmetric hp r []

/-- An escaped range comes back under the symmetric table, and under the other where it holds no marker
(43_escape.md R145). -/
theorem unescRange_escRange {p : Config.Params} {r : List Byte} (h : p.symmetricEscape = true ∨ mark ∉ r) :
    unescRange (escRange p r) = r := by
  cases hp : p.symmetricEscape with
  | true => exact unescRange_escRange_symmetric hp r
  | false =>
    have hr : mark ∉ r := h.resolve_left (Bool.eq_false_iff.1 hp)
    rw [unescRange_escRange_asymmetric hp]
    exact (unescRange_eq_self_iff r).2 (not_hasPair_of_mark_notMem hr)

/-! ### The range in its buffer -/

theorem slice_append (u r v : List Byte) : slice (u ++ (r ++ v)) u.length (u.length + r.length) = r := by
  simp [slice, List.take_append]

/-- What stands before and after the range is copied (43_escape.md R147). -/
theorem unescape_append (u r v : List Byte) :
    unescape (u ++ (r ++ v)) u.length (u.length + r.length) = u ++ (unescRange r ++ v) := by
  rw [unescape, slice_append, List.take_left, List.drop_length_add_append, List.drop_left]

theorem length_escape (p : Config.Params) {buf : List Byte} {st en : Nat} (h : st ≤ en) :
    (escape p buf st en).length = buf.length + escapeGrowth p (slice buf st en) := by
  have hbuf := congrArg List.length (take_slice_drop (s := buf) h)
  simp only [escape, List.length_append, length_escRange] at *
  omega

theorem length_unescape_add_pairsConsumed {buf : List Byte} {st en : Nat} (h : st ≤ en) :
    (unescape buf st en).length + pairsConsumed (slice buf st en) = buf.length := by
  have hbuf := congrArg List.length (take_slice_drop (s := buf) h)
  have hr := length_unescRange_add_pairsConsumed (slice buf st en)
  simp only [unescape, List.length_append] at *
  omega

/-- The range with its last byte told apart. -/
theorem slice_succ {buf : List Byte} {st en : Nat} {b : Byte} (h : st ≤ en) (hb : buf[en]? = some b) :
    slice buf st (en + 1) = slice buf st en ++ [b] := by
  have hlt : en < buf.length := (List.getElem?_eq_some_iff.1 hb).1
  have hst : st ≤ (buf.take en).length := by rw [List.length_take]; omega
  rw [slice, List.take_add_one, hb, List.drop_append_of_le_length hst]
  rfl

/-! ### The statements about the codec -/

/-- Settles O24: the front bytes decide as the rule lists them. -/
theorem unescRangeByCases : Obligations.UnescRangeByCases :=
  ⟨unescRange_nil, unescRange_mark_one, unescRange_mark_two, fun _ _ => unescRange_of_no_pair,
    fun _ _ _ _ _ => (List.append_assoc _ _ _).symm⟩

/-- Settles O25: a marker at the end of the range, with nothing in the range behind it, starts no pair. -/
theorem pairNeverStraddlesRangeEnd : Obligations.PairNeverStraddlesRangeEnd := by
  intro buf st en hse _ hmark
  have hhead : [mark].head? ≠ some 0x01#8 ∧ [mark].head? ≠ some 0x02#8 := by decide
  rw [unescape, slice_succ hse hmark, ← mark, unescRange_append _ hhead, unescRange_single, List.append_assoc]
  rfl

/-- Settles O26: the range grows by `escapeGrowth`, which is at most its length. -/
theorem escapedLength : Obligations.EscapedLength := by
  intro p buf st en hse hen
  have hlen := length_escape p (buf := buf) hse
  have hgrow := length_escRange_le p (slice buf st en)
  rw [length_escRange, length_slice hen] at hgrow
  refine ⟨hlen, by omega, by omega, fun hp hfit => ?_⟩
  have hobuf : 2 * p.ibufBytes + 28 ≤ p.obufBytes := by
    simp only [Config.Params.wf, Bool.and_eq_true, decide_eq_true_eq] at hp
    obtain ⟨⟨-, hobuf⟩, -⟩ := hp
    exact hobuf
  omega

/-- Settles O27: each law is one of the byte table, carried along the range. -/
theorem escapeLaws : Obligations.EscapeLaws := by
  refine fun p => ⟨fun buf st en hse _ hd hm => ?_, delim_notMem_escRange p, escRange_append p⟩
  rw [escape, escRange_copied (r := slice buf st en) hd hm, take_slice_drop hse]

/-- Settles O28: the pairs consumed are two bytes each and do not overlap. -/
theorem unescapedLength : Obligations.UnescapedLength := by
  intro buf st en hse hen
  have hlen := length_unescape_add_pairsConsumed (buf := buf) hse
  have hpairs := two_mul_pairsConsumed_le (slice buf st en)
  rw [length_slice hen] at hpairs
  exact ⟨hlen, by omega, length_unescape_le buf st en hse⟩

/-- Settles O29: the escaped bytes occupy `[st, en + escapeGrowth)`, and that range comes back. -/
theorem unescapeRestoresEscaped : Obligations.UnescapeRestoresEscaped := by
  intro p buf st en hse hen h
  have hst : (buf.take st).length = st := List.length_take_of_le (hse.trans hen)
  have hen' : st + (escRange p (slice buf st en)).length = en + escapeGrowth p (slice buf st en) := by
    rw [length_escRange, length_slice hen]
    omega
  have hcut := unescape_append (buf.take st) (escRange p (slice buf st en)) (buf.drop en)
  rw [hst, hen', unescRange_escRange (r := slice buf st en) h, take_slice_drop hse] at hcut
  exact hcut

/-- The interior of a frame, unescaped under the asymmetric table: whether or not the checksum was escaped with the
payload, the bytes are those that unescaping the raw interior gives (43_escape.md R146). -/
theorem unescape_encodeFrame_asymmetric {p : Config.Params} (hp : p.symmetricEscape = false) (body : List Byte)
    (fid mt : Half) (phone : Vector Byte 6) :
    unescape (encodeFrame p body fid phone mt) 1 ((encodeFrame p body fid phone mt).length - 1) =
      delim :: (unescRange (framePayload body fid phone mt ++ [checksum (framePayload body fid phone mt)]) ++
        [delim]) := by
  obtain ⟨inner, hframe, hinner⟩ : ∃ inner, encodeFrame p body fid phone mt = [delim] ++ (inner ++ [delim]) ∧
      unescRange inner =
        unescRange (framePayload body fid phone mt ++ [checksum (framePayload body fid phone mt)]) := by
    cases hc : p.escapeChecksum with
    | true => exact ⟨_, encodeFrame_of_escapeChecksum hc body fid phone mt, unescRange_escRange_asymmetric hp _⟩
    | false =>
      refine ⟨_, ?_, unescRange_escRange_append_asymmetric hp _ _⟩
      simp [encodeFrame_of_rawChecksum hc]
  have hlen : ([delim] ++ (inner ++ [delim])).length - 1 = [delim].length + inner.length := by
    simp only [List.length_append, List.length_singleton]
    omega
  rw [hframe, hlen, ← hinner]
  exact unescape_append [delim] inner [delim]

/-- Settles O30: under the asymmetric table the round trip is `unescRange` itself, which changes exactly the ranges
with a pair. -/
theorem asymmetricRoundTripExactly : Obligations.AsymmetricRoundTripExactly := by
  intro p hp
  have hiff (r : List Byte) : unescRange (escRange p r) = r ↔ ¬HasPair r := by
    rw [unescRange_escRange_asymmetric hp, unescRange_eq_self_iff]
  have hone : escRange p [mark, 0x01#8] = [mark, 0x01#8] := escRange_copied (by decide) (by simp [hp])
  have htwo : escRange p [mark, 0x02#8] = [mark, 0x02#8] := escRange_copied (by decide) (by simp [hp])
  refine ⟨hiff, hone, htwo, ?_, ?_, fun body fid mt phone => ?_⟩
  · exact (congrArg unescRange hone).trans (unescRange_mark_one [])
  · exact (congrArg unescRange htwo).trans (unescRange_mark_two [])
  · rw [unescape_encodeFrame_asymmetric hp, ← unescRange_eq_self_iff, ← delim, List.cons_inj_right,
      List.append_cons _ _ [delim], List.append_left_inj]

/-! ### The two ways ESCAPE and UNESCAPE end -/

/-- ESCAPE and UNESCAPE over written cells write the transformed buffer and RESULT 0 (43_escape.md R131, R140). -/
theorem runTransform_written (f : List Byte → Nat → Nat → List Byte) {s : State} {n st en : Nat} {buf : List Byte}
    (hr : s.RangeIs n st en) (hlen : buf.length = n) (hbuf : s.Holds 0 buf) :
    runTransform f s = complete 0 false ((s.setOutput (f buf st en)).setResult 0) := by
  obtain ⟨hok, hn, hst, hen⟩ := hr.spec
  rw [runTransform_ok hok, hn, hst, hen, ← hlen, State.ibufBytes_of_holds hbuf,
    State.afterIbufRead_of_written (State.ibufUnwritten_of_holds hbuf)]

/-- On a range that fails they complete with `ERR_RANGE` and change nothing else (43_escape.md R131, R140). -/
theorem runTransform_fails (f : List Byte → Nat → Nat → List Byte) {s : State} (h : s.RangeFails) :
    runTransform f s = completed s 1 false :=
  runTransform_error (State.rangeError_of_fails h)

/-- Settles O22: the range check decides between the escaped buffer and `ERR_RANGE`. -/
theorem escapeEffect : Obligations.EscapeEffect := by
  refine fun s => ⟨fun n st en buf hr hlen hbuf => ?_, fun hf => ?_⟩
  · exact ⟨_, escape s.params buf st en, congrArg Host.Outcome.next (runTransform_written _ hr hlen hbuf), rfl,
      outputIs_complete_setOutput s _ 0 0 false, complete_setOutput_eq s _ 0 0 false⟩
  · exact congrArg Host.Outcome.next (runTransform_fails _ hf)

/-- Settles O23: the range check decides between the unescaped buffer and `ERR_RANGE`. -/
theorem unescapeEffect : Obligations.UnescapeEffect := by
  refine fun s => ⟨fun n st en buf hr hlen hbuf => ?_, fun hf => ?_⟩
  · exact ⟨_, unescape buf st en, congrArg Host.Outcome.next (runTransform_written _ hr hlen hbuf), rfl,
      outputIs_complete_setOutput s _ 0 0 false, complete_setOutput_eq s _ 0 0 false⟩
  · exact congrArg Host.Outcome.next (runTransform_fails _ hf)

end Sys2Proof.Machine
end

section
/-! PROOFS. The statements about the frame and the two ENCODE commands (44_frame.md), and the lemmas they need: the
length that the header declares, the interior of a frame, and what the two commands share. -/

namespace Sys2Proof.Machine

/-! ### The declared length -/

/-- The header declares the low ten bits of the body's length, and nothing else (44_frame.md R151). -/
theorem frameProps_eq_mod (n : Nat) : frameProps n = BitVec.ofNat 16 (n % 1024) := by
  refine BitVec.eq_of_toNat_eq ?_
  simp only [frameProps, packValue_toNat, BitVec.toNat_ofNat, BitVec.ofNat_eq_ofNat]
  omega

/-- The declared length as the low ten bits of `IN_LEN` (10_state.md R36). -/
theorem frameProps_toNat (v : Word) : frameProps v.toNat = (v.extractLsb' 0 10).setWidth 16 := by
  simp [frameProps, packValue]

theorem framePayload_eq (body : List Byte) (fid : Half) (phone : Vector Byte 6) (mt : Half) :
    framePayload body fid phone mt = buildHeader phone mt (BitVec.ofNat 16 (body.length % 1024)) fid ++ body := by
  rw [framePayload, frameProps_eq_mod]

/-- The payload of an empty body is a header that declares 0 (44_frame.md R156). -/
theorem framePayload_nil (fid : Half) (phone : Vector Byte 6) (mt : Half) :
    framePayload [] fid phone mt = buildHeader phone mt 0 fid := by
  rw [framePayload_eq, List.append_nil]
  rfl

/-! ### The frame -/

/-- Settles O33: the payload is the header with the declared length, then the body. -/
theorem frameLayout : Obligations.FrameLayout := by
  intro p body fid mt phone _
  dsimp only
  rw [← framePayload_eq]
  refine ⟨fun h => encodeFrame_of_escapeChecksum h .., fun h => ?_⟩
  rw [encodeFrame_of_rawChecksum h, List.append_assoc _ _ [0x7E#8]]
  rfl

/-- What stands before and after the range is copied (43_escape.md R147). -/
theorem escape_append (p : Config.Params) (u r v : List Byte) :
    escape p (u ++ (r ++ v)) u.length (u.length + r.length) = u ++ (escRange p r ++ v) := by
  rw [escape, slice_append, List.take_left, List.drop_length_add_append, List.drop_left]

/-- A range that begins behind the opening delimiter. -/
theorem escape_delim_append (p : Config.Params) (r v : List Byte) :
    escape p (delim :: (r ++ v)) 1 (1 + r.length) = delim :: (escRange p r ++ v) :=
  escape_append p [delim] r v

/-- Settles O34: the escaped range is all between the delimiters, or all but the checksum. -/
theorem frameIsEscapedRawFrame : Obligations.FrameIsEscapedRawFrame := by
  intro p body fid mt phone payload raw
  have hlen : raw.length = 1 + payload.length + 2 := by simp only [raw, List.length_append, List.length_singleton]
  cases h : p.escapeChecksum with
  | true =>
    have hraw : raw = delim :: ((payload ++ [checksum payload]) ++ [delim]) := rfl
    have hend : raw.length - 1 = 1 + (payload ++ [checksum payload]).length := by
      rw [hlen, List.length_append, List.length_singleton]
      omega
    rw [if_pos rfl, hend, hraw, escape_delim_append, encodeFrame_of_escapeChecksum h]
  | false =>
    have hraw : raw = delim :: (payload ++ [checksum payload, delim]) := List.append_assoc (delim :: payload) _ _
    have hend : raw.length - 2 = 1 + payload.length := by omega
    rw [if_neg Bool.false_ne_true, hend, hraw, escape_delim_append, encodeFrame_of_rawChecksum h]

/-- Settles O35: what is escaped holds no delimiter. -/
theorem frameDelimitersOnlyAtEnds : Obligations.FrameDelimitersOnlyAtEnds := by
  intro p body fid mt phone
  cases h : p.escapeChecksum with
  | true => exact ⟨_, encodeFrame_of_escapeChecksum h .., fun _ => delim_notMem_escRange p _, nofun⟩
  | false =>
    refine ⟨escRange p (framePayload body fid phone mt) ++ [checksum (framePayload body fid phone mt)], ?_, nofun,
      fun _ => ⟨_, rfl, delim_notMem_escRange p _⟩⟩
    rw [encodeFrame_of_rawChecksum h, List.append_assoc]
    rfl

/-- The exact length of a frame (44_frame.md R155): 12 header bytes, the body, the checksum and two delimiters, and what
the escaped range grows by. -/
theorem length_encodeFrame (p : Config.Params) (body : List Byte) (fid : Half) (phone : Vector Byte 6) (mt : Half) :
    (encodeFrame p body fid phone mt).length =
      15 + body.length + escapeGrowth p
        (if p.escapeChecksum then framePayload body fid phone mt ++ [checksum (framePayload body fid phone mt)]
        else framePayload body fid phone mt) := by
  have hpayload := length_framePayload body fid phone mt
  cases h : p.escapeChecksum with
  | true =>
    rw [encodeFrame_of_escapeChecksum h, if_pos rfl]
    simp only [List.length_cons, List.length_append, List.length_nil, length_escRange]
    omega
  | false =>
    rw [encodeFrame_of_rawChecksum h, if_neg Bool.false_ne_true]
    simp only [List.length_cons, List.length_append, List.length_nil, length_escRange]
    omega

/-- The frame of a body that fits IBUF fits OBUF, and its length fits `OUT_LEN` (44_frame.md R155, 00_scope.md R11). -/
theorem length_encodeFrame_fits {p : Config.Params} (hp : p.wf = true) {body : List Byte}
    (hfit : body.length ≤ p.ibufBytes) (fid : Half) (phone : Vector Byte 6) (mt : Half) :
    (encodeFrame p body fid phone mt).length ≤ p.obufBytes ∧ (encodeFrame p body fid phone mt).length < 2 ^ 32 := by
  have hle := length_encodeFrame_le p body fid phone mt
  simp only [Config.Params.wf, Bool.and_eq_true, decide_eq_true_eq] at hp
  omega

/-- Settles O36: the exact length, its bound, and what the parameters leave room for. -/
theorem frameLength : Obligations.FrameLength := fun p body fid mt phone =>
  ⟨length_encodeFrame p body fid phone mt, length_encodeFrame_le p body fid phone mt,
    fun hp hfit => (length_encodeFrame_fits hp hfit fid phone mt).1⟩

/-! ### The two ENCODE commands -/

/-- The effect the two commands share changes OBUF, OUT_LEN, RESULT and STATUS, and nothing else (44_frame.md R152,
R156). -/
theorem finishFrame_eq (body : List Byte) (ovf : Bool) (s : State) :
    finishFrame body ovf s =
      { completed s 0 ovf with
        result := frameResult body s.flowId s.phone s.msgType
        outLen := BitVec.ofNat 32 (encodeFrame s.params body s.flowId s.phone s.msgType).length
        obuf := s.obuf.write 0 (encodeFrame s.params body s.flowId s.phone s.msgType) } :=
  complete_setOutput_eq s _ _ 0 ovf

/-- ENCODE_WITH_BODY on a written body, not refused: nothing is recorded by reading (44_frame.md R152). -/
theorem runEncodeWithBody_written {s : State} {body : List Byte} (hlen : body.length = s.inLen.toNat)
    (hfit : s.inLen.toNat ≤ s.params.ibufBytes) (hok : s.inLen.toNat < 1024 ∨ s.ctrl = 0) (hbody : s.Holds 0 body) :
    runEncodeWithBody s =
      finishFrame body (1024 ≤ s.inLen.toNat) (diagnose (1024 ≤ s.inLen.toNat) s.inLen s) := by
  have hcount : s.inCount = s.inLen.toNat := rfl
  rw [runEncodeWithBody_framed hfit (hok.imp_right s.refusing_eq_false_iff.2), hcount, BitVec.ofNat_toNat,
    BitVec.setWidth_eq, ← hlen, State.ibufBytes_of_holds hbody,
    State.afterIbufRead_of_written (State.ibufUnwritten_of_holds hbody)]

/-- The whole state it leaves: that of `finishFrame`, with the event of a length that overflowed. -/
theorem runEncodeWithBody_written_eq {s : State} {body : List Byte} (hlen : body.length = s.inLen.toNat)
    (hfit : s.inLen.toNat ≤ s.params.ibufBytes) (hok : s.inLen.toNat < 1024 ∨ s.ctrl = 0) (hbody : s.Holds 0 body) :
    runEncodeWithBody s =
      { finishFrame body (1024 ≤ s.inLen.toNat) s with
        events := s.events ++ if 1024 ≤ s.inLen.toNat then [.diagOvf s.inLen] else [] } := by
  rw [runEncodeWithBody_written hlen hfit hok hbody, diagnose_eq]
  simp only [decide_eq_true_eq]
  rfl

/-- The frame stands in OBUF from cell 0, and every other cell is as it was (10_state.md R47). -/
theorem outputIs_finishFrame (body : List Byte) (ovf : Bool) (s : State) :
    OutputIs s (finishFrame body ovf s) (encodeFrame s.params body s.flowId s.phone s.msgType) :=
  outputIs_complete_setOutput s _ _ 0 ovf

/-- Settles O31: a written body is framed, and the two errors come before any read. -/
theorem encodeWithBodyEffect : Obligations.EncodeWithBodyEffect := by
  refine fun s => ⟨fun body hlen hfit hok hbody => ?_, fun h => ?_, fun ho hfit hc => ?_⟩
  · refine ⟨_, _, congrArg Host.Outcome.next (runEncodeWithBody_written_eq hlen hfit hok hbody), rfl,
      outputIs_finishFrame body (1024 ≤ s.inLen.toNat) s, ?_⟩
    rw [finishFrame_eq, frameResult, framePayload, hlen, frameProps_toNat]
  · exact congrArg Host.Outcome.next (runEncodeWithBody_range h)
  · exact congrArg Host.Outcome.next (runEncodeWithBody_refused hfit ho (s.refusing_eq_true_iff.2 hc))

/-- Settles O32: it is `finishFrame` of an empty body. -/
theorem encodeHeaderOnlyEffect : Obligations.EncodeHeaderOnlyEffect := by
  refine fun s => ⟨_, _, rfl, rfl, outputIs_finishFrame [] false s, ?_⟩
  rw [finishFrame_eq, frameResult, framePayload_nil]
  rfl

/-- Settles O37: a body of 0 bytes is written, whatever IBUF holds, and does not overflow. -/
theorem emptyBodyEncodesAsHeaderOnly : Obligations.EmptyBodyEncodesAsHeaderOnly := by
  intro s h
  have hzero : s.inLen.toNat = 0 := by rw [h]; rfl
  have hempty : s.Holds 0 [] := nofun
  have hrun := runEncodeWithBody_written (body := []) hzero.symm (by omega) (.inl (by omega)) hempty
  rw [hzero] at hrun
  exact congrArg Host.Outcome.next hrun

/-- Settles O38: the frame's layout at a length that overflows and is not refused. -/
theorem oversizedBodyDeclaresLengthMod1024 : Obligations.OversizedBodyDeclaresLengthMod1024 := by
  intro s body hp hlen ho hfit hc hbody
  rw [hlen] at ho
  have hlayout := frameLayout s.params body s.flowId s.msgType s.phone (hlen ▸ s.inLen.isLt)
  have hout := (length_encodeFrame_fits hp hfit s.flowId s.phone s.msgType).2
  have hrun := runEncodeWithBody_written_eq hlen (hlen ▸ hfit) (.inr hc) hbody
  refine ⟨_, _, _, congrArg Host.Outcome.next hrun, ?status, ?events, outputIs_finishFrame body (1024 ≤ s.inLen.toNat) s,
    Nat.mod_eq_of_lt hout, rfl, hlayout⟩
  case status => simp [finishFrame_eq, completed, ho]
  case events => simp [hlen, ho]

end Sys2Proof.Machine
end

section
/-! PROOFS. The statements about the errors (60_exceptions.md R171 to R175) and the unwritten cells (R182), and the lemmas
they need: what an illegal word does, the STATUS that each command completes with, and the faults it records. -/

namespace Sys2Proof.Machine

/-! ### Illegal words (60_exceptions.md R173) -/

theorem exists_decode_eq_illegal_iff (w : Word) :
    (∃ why, decode w = .illegal why) ↔ ¬∃ i, decode w = .instr i := by
  cases decode w <;> simp

/-- The core's step on an illegal word is a completion, around which only the schedule advances. -/
theorem step_illegal {s : State} {why : Illegal} (h : CoreNext s) (hd : decode s.cmd = .illegal why) :
    step s = .next (completed { s with turns := s.turns.tail } 2 false) := by
  have hbusy : (takeTurn s).status.busy = true := h.2.2
  have hdecode : decode (takeTurn s).cmd = .illegal why := hd
  rw [step_coreNext h, coreTurn, if_pos hbusy, hdecode]
  rfl

/-- Settles O8: a word whose fields are outside the opcode map has no command, so it decodes to an illegal word. -/
theorem illegalWordCompletesWithErr2 : Obligations.IllegalWordCompletesWithErr2 := by
  intro s h hword
  have hnone : ¬∃ i, decode s.cmd = .instr i := by
    rw [exists_decode_eq_instr_iff]
    omega
  obtain ⟨why, hd⟩ := (exists_decode_eq_illegal_iff s.cmd).2 hnone
  exact step_illegal h hd

/-! ### An error changes only STATUS (60_exceptions.md R175) -/

/-- Of the three shapes of a completed command only the error has a code. -/
theorem Shape.eq_of_err_ne_zero {s t : State} (h : Shape s t) (herr : t.status.err ≠ 0) :
    t = { s with status := t.status } := by
  cases h with
  | error => rfl
  | scalar | bytes => exact absurd rfl herr

theorem exec_eq_of_err_ne_zero {i : Instr} {s t : State} (h : exec i s = .next t) (herr : t.status.err ≠ 0) :
    t = { s with status := t.status } :=
  (shape_of_exec h).eq_of_err_ne_zero herr

/-- Settles O11: by the shapes of a completed command; acceptance is one write of CMD and one of STATUS. -/
theorem errorsChangeOnlyStatus : Obligations.ErrorsChangeOnlyStatus := by
  refine ⟨fun i s t => exec_eq_of_err_ne_zero, fun s why h hd => ⟨_, step_illegal h hd, rfl⟩, fun s w rest h hb => ?_⟩
  have hstep := step_write_register (r := .cmd) h
  rw [writeReg_cmd (s := taken s rest) hb] at hstep
  exact ⟨_, hstep, rfl⟩

/-! ### The range check decides (60_exceptions.md R172) -/

theorem runChecksum_status {s : State} (h : ¬s.RangeFails) :
    (runChecksum s).status = { busy := false, done := true, ovf := false, err := 0 } := by
  rw [runChecksum_ok (State.rangeError_of_not_fails h), complete_eq, State.setStatus_status]

theorem runTransform_status (f : List Byte → Nat → Nat → List Byte) {s : State} (h : ¬s.RangeFails) :
    (runTransform f s).status = { busy := false, done := true, ovf := false, err := 0 } := by
  rw [runTransform_ok (State.rangeError_of_not_fails h), complete_eq, State.setStatus_status]

theorem exec_of_rangeFails {i : Instr} (hi : i = .checksum ∨ i = .escape ∨ i = .unescape) {s : State}
    (h : s.RangeFails) : exec i s = .next (completed s 1 false) := by
  obtain rfl | rfl | rfl := hi
  · exact congrArg Host.Outcome.next (runChecksum_error (State.rangeError_of_fails h))
  · exact congrArg Host.Outcome.next (runTransform_fails _ h)
  · exact congrArg Host.Outcome.next (runTransform_fails _ h)

theorem exec_of_not_rangeFails {i : Instr} (hi : i = .checksum ∨ i = .escape ∨ i = .unescape) {s : State}
    (h : ¬s.RangeFails) :
    ∃ t, exec i s = .next t ∧ t.status = { busy := false, done := true, ovf := false, err := 0 } := by
  obtain rfl | rfl | rfl := hi
  · exact ⟨_, rfl, runChecksum_status h⟩
  · exact ⟨_, rfl, runTransform_status _ h⟩
  · exact ⟨_, rfl, runTransform_status _ h⟩

/-- Settles O14: `start = -1` and `end = n + 1` are two of the ways to fail the check. -/
theorem rangeCheckDecides : Obligations.RangeCheckDecides := by
  refine fun i s hi => ⟨exec_of_rangeFails hi, fun hends => exec_of_rangeFails hi ?_, fun h => ⟨?bounds, ?_⟩⟩
  · unfold State.RangeFails
    omega
  case bounds =>
    unfold State.RangeFails at h
    omega
  · obtain ⟨t, ht, hst⟩ := exec_of_not_rangeFails hi h
    exact ⟨t, ht, by rw [hst]⟩

/-! ### The code and OVF of each command (60_exceptions.md R171, R174) -/

/-- PACK overflows from 1024 on, and is refused for it under `OVF_POLICY = 1` (40_pack.md R103, R104). -/
theorem execPack_status (s : State) :
    ∃ t, execPack s = .next t ∧ t.status =
      { busy := false, done := true, ovf := overflow s.bodyLen,
        err := if overflow s.bodyLen = true ∧ s.refusing = true then 3 else 0 } := by
  by_cases h : overflow s.bodyLen = true ∧ s.refusing = true
  · obtain ⟨ho, hr⟩ := h
    refine ⟨_, execPack_refused ho hr, ?_⟩
    rw [raise_eq, State.setStatus_status, if_pos ⟨ho, hr⟩, ho]
    rfl
  · have hok := (not_and_or.1 h).imp Bool.eq_false_of_not_eq_true Bool.eq_false_of_not_eq_true
    refine ⟨_, execPack_packed hok, ?_⟩
    rw [complete_eq, State.setStatus_status, if_neg h]

theorem runEncodeWithBody_framed_status {s : State} (hfit : s.inCount ≤ s.params.ibufBytes)
    (hok : s.inCount < 1024 ∨ s.refusing = false) :
    (runEncodeWithBody s).status = { busy := false, done := true, ovf := decide (1024 ≤ s.inCount), err := 0 } := by
  rw [runEncodeWithBody_framed hfit hok]
  rfl

/-- RANGE comes before LEN_OVERFLOW, and only a length that fits IBUF overflows (60_exceptions.md R174). -/
theorem runEncodeWithBody_status (s : State) :
    (runEncodeWithBody s).status =
      { busy := false, done := true,
        ovf := decide (1024 ≤ s.inCount ∧ s.inCount ≤ s.params.ibufBytes),
        err := if s.params.ibufBytes < s.inCount then 1 else if 1024 ≤ s.inCount ∧ s.refusing = true then 3 else 0 } := by
  by_cases hn : s.params.ibufBytes < s.inCount
  · simp [runEncodeWithBody_range hn, hn, errorOvf, errorCode]
  have hfit := Nat.not_lt.1 hn
  by_cases h : 1024 ≤ s.inCount ∧ s.refusing = true
  · obtain ⟨ho, hr⟩ := h
    simp [runEncodeWithBody_refused hfit ho hr, hn, hfit, ho, hr, errorOvf, errorCode]
  · have hok := (not_and_or.1 h).imp Nat.not_le.1 Bool.eq_false_of_not_eq_true
    simp only [runEncodeWithBody_framed_status hfit hok, if_neg hn, if_neg h, hfit, and_true]

/-- Settles O12: each command's STATUS, and the two lemmas that an error changes nothing else. -/
theorem errorCodePerCommand : Obligations.ErrorCodePerCommand := by
  refine fun s => ⟨?pack, ⟨_, rfl, rfl, rfl⟩, ⟨_, rfl, rfl, rfl⟩, fun i hi => ?ranged, ⟨_, rfl, ?code, ?ovf⟩,
    fun why h hd => ⟨_, step_illegal h hd, rfl, rfl, rfl⟩, fun i t => exec_eq_of_err_ne_zero⟩
  case pack =>
    obtain ⟨t, ht, hst⟩ := execPack_status s
    refine ⟨t, ht, ?_, ?_⟩
    · simp only [hst, overflow_iff, State.refusing_eq_true_iff]
    · rw [hst]
      rfl
  case ranged =>
    have hi : i = .checksum ∨ i = .escape ∨ i = .unescape := by simpa using hi
    by_cases h : s.RangeFails
    · exact ⟨_, exec_of_rangeFails hi h, fun _ => rfl, fun hn => absurd h hn, rfl⟩
    · obtain ⟨t, ht, hst⟩ := exec_of_not_rangeFails hi h
      exact ⟨t, ht, fun hf => absurd hf h, fun _ => by rw [hst], by rw [hst]⟩
  case code =>
    simp only [runEncodeWithBody_status, State.refusing_eq_true_iff]
    rfl
  case ovf =>
    rw [runEncodeWithBody_status]
    rfl

/-! ### Reading an unwritten cell (60_exceptions.md R182) -/

/-- One unwritten cell in the range that a command reads is enough. -/
theorem State.afterIbufRead_faults_of_unwritten {s : State} {st n a : Nat} (ha : s.ibuf.read a = none) (hst : st ≤ a)
    (hlt : a < st + n) : (s.afterIbufRead st n).faults = { s.faults with uninitRead := true } := by
  rw [State.afterIbufRead_of_unwritten ((s.ibufUnwritten_iff st n).2 ⟨a, hst, hlt, ha⟩)]
  rfl

/-- CHECKSUM records what reading `IBUF[start : end)` records (20_memory.md R71). -/
theorem runChecksum_faults {s : State} (h : ¬s.RangeFails) :
    (runChecksum s).faults = (s.afterIbufRead s.startIdx (s.stopIdx - s.startIdx)).faults := by
  rw [runChecksum_ok (State.rangeError_of_not_fails h)]
  rfl

/-- ESCAPE and UNESCAPE record what reading `IBUF[0 : n)` records (20_memory.md R71). -/
theorem runTransform_faults (f : List Byte → Nat → Nat → List Byte) {s : State} (h : ¬s.RangeFails) :
    (runTransform f s).faults = (s.afterIbufRead 0 s.inCount).faults := by
  rw [runTransform_ok (State.rangeError_of_not_fails h)]
  rfl

/-- ENCODE_WITH_BODY records what reading `IBUF[0 : n)` records (20_memory.md R71). -/
theorem runEncodeWithBody_faults {s : State} (hfit : s.inCount ≤ s.params.ibufBytes)
    (hok : s.inCount < 1024 ∨ s.refusing = false) :
    (runEncodeWithBody s).faults = (s.afterIbufRead 0 s.inCount).faults := by
  rw [runEncodeWithBody_framed hfit hok]
  exact diagnose_faults ..

theorem State.RangeIs.not_fails {s : State} {n st en : Nat} (h : s.RangeIs n st en) : ¬s.RangeFails := by
  obtain ⟨hn, hst, hen, hle, hen_le, hfit⟩ := h
  unfold State.RangeFails
  omega

/-- Settles O15: the unwritten cell is in the range that each command reads, and the completion does not depend on it. -/
theorem unwrittenReadRecorded : Obligations.UnwrittenReadRecorded := by
  intro s n st en a ha
  have hrecorded (hlt : a < s.inCount) : (s.afterIbufRead 0 s.inCount).faults = { s.faults with uninitRead := true } :=
    State.afterIbufRead_faults_of_unwritten ha (Nat.zero_le a) (by omega)
  refine ⟨fun hr hst hen => ⟨_, rfl, ?_, runChecksum_status hr.not_fails⟩, fun hr hlt i hi => ?_,
    fun hfit hok hlt => ?_⟩
  · obtain ⟨-, -, hstart, hstop⟩ := hr.spec
    rw [runChecksum_faults hr.not_fails, hstart, hstop]
    exact State.afterIbufRead_faults_of_unwritten ha hst (by omega)
  · obtain ⟨-, hcount, -, -⟩ := hr.spec
    have hrun (f : List Byte → Nat → Nat → List Byte) :
        (runTransform f s).faults = { s.faults with uninitRead := true } :=
      (runTransform_faults f hr.not_fails).trans (hrecorded (hcount ▸ hlt))
    obtain rfl | rfl := hi
    · exact ⟨_, rfl, hrun _, runTransform_status _ hr.not_fails⟩
    · exact ⟨_, rfl, hrun _, runTransform_status _ hr.not_fails⟩
  · have hok := hok.imp_right s.refusing_eq_false_iff.2
    exact ⟨_, rfl, (runEncodeWithBody_faults hfit hok).trans (hrecorded hlt), runEncodeWithBody_framed_status hfit hok⟩

end Sys2Proof.Machine
end

section
/-! PROOFS. The statements about reset and the hazards at the port (70_reset_and_hazards.md), and the lemmas they need:
what a write and a read do while a command is in flight, the step that takes the reset input, and the core's step right
after an acceptance. -/

namespace Sys2Proof.Machine

/-! ### Writes while busy (70_reset_and_hazards.md R195) -/

theorem rwOffsets_eq_map : rwOffsets = (Reg.cmd :: operandRegs).map regOffset := rfl

theorem mem_rwOffsets {a : Nat} (h : a ∈ rwOffsets) : ∃ r, regWritable r = true ∧ a = regOffset r := by
  rw [rwOffsets_eq_map, List.mem_map] at h
  obtain ⟨r, hr, rfl⟩ := h
  obtain rfl | hr := List.mem_cons.1 hr
  · exact ⟨.cmd, rfl, rfl⟩
  · exact ⟨r, ((mem_operandRegs r).1 hr).1, rfl⟩

/-- A busy write of an RW register, CMD among them, records `HOST_HAZARD` alone. -/
theorem writeReg_busy_faults {r : Reg} {s : State} (hw : regWritable r = true) (hb : s.status.busy = true) (v : Word) :
    (writeReg r v s).faults = { s.faults with hostHazard := true } := by
  rw [writeReg, if_pos hw, if_pos hb]
  simp

theorem writeIbuf_busy_faults {s : State} (hb : s.status.busy = true) (i : Nat) (b : Byte) :
    (writeIbuf i b s).faults = { s.faults with hostHazard := true } := by
  rw [writeIbuf, if_pos hb]
  rfl

/-- Settles O46: by the register or the window at the written offset. -/
theorem busyWritesAreHazards : Obligations.BusyWritesAreHazards := by
  refine fun s rest hp hb => ⟨fun a v ha h => ?_, fun i b hi h => ?_, fun a v ha h => ?_,
    fun i b hi h => step_write_obuf h hp hi⟩
  · obtain ⟨r, hw, rfl⟩ := mem_rwOffsets ha
    exact ⟨_, step_write_register h, writeReg_busy_faults (s := taken s rest) hw hb v⟩
  · exact ⟨_, step_write_ibuf h hi, writeIbuf_busy_faults (s := taken s rest) hb i b⟩
  · obtain ⟨r, hw, rfl⟩ := mem_roOffsets ha
    exact step_write_readOnly h hw

/-! ### Reads while busy (70_reset_and_hazards.md R196) -/

/-- The read table lists exactly the registers that answer their value at any time (10_state.md R38). -/
theorem readTable_eq_map (s : State) :
    readTable s = (allRegs.filter fun r => !regBusyUnspecified r).map fun r => (regOffset r, readReg s r) := rfl

theorem mem_readTable {s : State} {a : Nat} {v : Word} (h : (a, v) ∈ readTable s) :
    ∃ r, regBusyUnspecified r = false ∧ a = regOffset r ∧ v = readReg s r := by
  rw [readTable_eq_map, List.mem_map] at h
  obtain ⟨r, hr, hav⟩ := h
  cases hav
  exact ⟨r, by simpa using (List.mem_filter.1 hr).2, rfl, rfl⟩

/-- A busy read of RESULT or OUT_LEN answers a free value and records nothing. -/
theorem step_read_register_unspecified {s : State} {r : Reg} {rest : List HostOp}
    (h : HostNext s (.access (.read32 (regOffset r))) rest) (hb : s.status.busy = true)
    (hr : regBusyUnspecified r = true) :
    ∃ v n, step s = .next { taken s rest with replies := s.replies ++ [.word v], draws := n } := by
  rw [step_access h, portAccess, read32_status, taken_status, hb, hr]
  exact ⟨_, _, rfl⟩

/-- Settles O48: an OBUF cell reads as an unwritten one, an IBUF cell and the registers of the table as while idle. -/
theorem busyReadAnswers : Obligations.BusyReadAnswers := by
  refine fun s rest hp hb => ⟨fun a ha h => ?_, fun a v hav h => ?_, fun i hi h => ?_,
    fun i hi h => step_replyCell_answers (step_read_ibuf h hi)⟩
  · obtain rfl | rfl : a = regOffset .result ∨ a = regOffset .outLen := by simpa [regOffset] using ha
    · exact step_read_register_unspecified h hb rfl
    · exact step_read_register_unspecified h hb rfl
  · obtain ⟨r, hr, rfl, rfl⟩ := mem_readTable hav
    exact step_read_register h (by rw [hr, Bool.and_false])
  · obtain ⟨-, hunwritten⟩ := step_replyCell_answers (step_read_obuf h hp hi)
    exact hunwritten (if_pos hb)

/-! ### The reset step (70_reset_and_hazards.md R190) -/

/-- The reset input is taken on the host's turn, and after a hazard at any turn. -/
theorem step_reset {s : State} {rest : List HostOp} (hh : s.host = .reset :: rest)
    (h : s.hazarded = true ∨ nextAgent s = .host) : step s = .next (resetStep ((takeTurn s).setHost rest)) := by
  have hhost : (takeTurn s).host = .reset :: rest := hh
  cases hz : s.hazarded with
  | true => rw [step, if_pos hz, stepAfterHazard, hhost]
  | false =>
    have hnext : nextAgent s = .host := h.resolve_left (Bool.eq_false_iff.1 hz)
    rw [step_hostNext ⟨hz, hnext, hh⟩, hostTurn, hhost]

/-- The constants read the parameters alone (10_state.md R41, R43, R44). -/
theorem readReg_constant {s t : State} (h : t.params = s.params) {r : Reg}
    (hr : r = .id ∨ r = .cfg ∨ r = .ibufSize ∨ r = .obufSize) : readReg t r = readReg s r := by
  obtain rfl | rfl | rfl | rfl := hr
  · rfl
  all_goals simp only [readReg, h]

/-- Settles O50: the step is `resetStep`, whose registers and buffers are those of `State.reset`. -/
theorem resetStepEffect : Obligations.ResetStepEffect := by
  intro s rest hh h
  have hparams : (resetStep ((takeTurn s).setHost rest)).params = s.params := rfl
  exact ⟨_, step_reset hh h, rfl, rfl, rfl, rfl, rfl, rfl, rfl, rfl, rfl, rfl, rfl, rfl, rfl, rfl, rfl, rfl, rfl,
    Memory.read_nil, Memory.read_nil, rfl, rfl, hparams, fun _ => readReg_constant hparams⟩

/-! ### The first command after reset (70_reset_and_hazards.md R192) -/

/-- The core's turn on a word that decodes runs its command (30_encoding.md R85). -/
theorem step_instr {s : State} {i : Instr} (h : CoreNext s) (hd : decode s.cmd = .instr i) :
    step s = exec i (takeTurn s) := by
  have hbusy : (takeTurn s).status.busy = true := h.2.2
  have hdecode : decode (takeTurn s).cmd = .instr i := hd
  rw [step_coreNext h, coreTurn, if_pos hbusy, hdecode]

/-- A command accepted right after reset runs in the state that its acceptance leaves. -/
theorem step_withFetchWord_reset (nbits : Nat) {w : Nat} {i : Instr} (h : BitVec.ofNat 32 w = encode i) :
    step (State.reset.withFetchWord nbits w) = exec i (accept (encode i) State.reset) := by
  have hcore : CoreNext (State.reset.withFetchWord nbits w) := ⟨rfl, rfl, rfl⟩
  have hd : decode (State.reset.withFetchWord nbits w).cmd = .instr i := (congrArg decode h).trans (decode_encode i)
  rw [step_instr hcore hd, ← h]
  rfl

theorem Memory.map_snd_cells (a : Nat) (s : List Byte) : (Memory.cells a s).map Prod.snd = s := by
  induction s generalizing a with
  | nil => rfl
  | cons b s ih => rw [Memory.cells, List.map_cons, ih]

theorem Memory.map_fst_cells (a : Nat) (s : List Byte) : (Memory.cells a s).map Prod.fst = List.range' a s.length := by
  induction s generalizing a with
  | nil => rfl
  | cons b s ih => rw [Memory.cells, List.map_cons, ih, List.length_cons, List.range'_succ]

theorem Memory.write_nil (a : Nat) (s : List Byte) : Memory.write [] a s = Memory.cells a s := List.append_nil _

/-- The frame of an all-zero header: its 12 bytes and their checksum are 0 (44_frame.md R150, R156). -/
theorem encodeFrame_zero_header :
    encodeFrame Config.params [] 0 State.reset.phone 0 = 0x7E#8 :: (List.replicate 13 0x00#8 ++ [0x7E#8]) := by
  decide

theorem frameResult_zero_header : frameResult [] 0 State.reset.phone 0 = 0 := by decide

/-- Settles O51: the effects of the three commands at the reset values of their operands. -/
theorem commandsRunRightAfterReset : Obligations.CommandsRunRightAfterReset := by
  have hstep {w : Nat} {i : Instr} (h : BitVec.ofNat 32 w = encode i) := step_withFetchWord_reset 32 h
  refine ⟨?pack, ?checksum, ?frame⟩
  case pack =>
    obtain ⟨hpacked, -⟩ := packEffect (accept (encode .pack) State.reset)
    exact ⟨_, (hstep rfl).trans (hpacked (.inr rfl)), rfl, rfl⟩
  case checksum =>
    obtain ⟨hwritten, -⟩ := checksumEffect (accept (encode .checksum) State.reset)
    exact ⟨_, (hstep rfl).trans (hwritten 0 0 0 [] ⟨rfl, rfl, rfl, by decide⟩ rfl nofun), rfl, rfl, rfl⟩
  case frame =>
    have hrun : step (State.reset.withFetchWord 32 0x7) =
        .next (finishFrame [] false (accept (encode .encodeHeaderOnly) State.reset)) :=
      hstep (i := .encodeHeaderOnly) rfl
    have hobuf : (finishFrame [] false (accept (encode .encodeHeaderOnly) State.reset)).obuf =
        Memory.cells 0 (0x7E#8 :: (List.replicate 13 0x00#8 ++ [0x7E#8])) :=
      (congrArg (Memory.write [] 0) encodeFrame_zero_header).trans (Memory.write_nil 0 _)
    refine ⟨_, hrun, frameResult_zero_header,
      congrArg (fun out => BitVec.ofNat 32 (List.length out)) encodeFrame_zero_header, ?_, ?_⟩
    · rw [hobuf, Memory.map_snd_cells]
    · rw [hobuf, Memory.map_fst_cells, List.range_eq_range']
      rfl

end Sys2Proof.Machine
end

section
/-! PROOFS. The statement about the whole encoding (30_encoding.md R80, R82), and the lemma it needs: the opcode map
inverts the opcodes. -/

namespace Sys2Proof

/-- The opcode map inverts `opcode` (30_encoding.md R82). -/
theorem decodeOp_eq_some_iff (op : BitVec 4) (i : Instr) : decodeOp op = some i ↔ op = opcode i := by
  revert op
  cases i <;> decide

/-- Settles O1: a decoded word has `Z = 0` and the command's opcode, so its value is the opcode, as the encoder's is. -/
theorem wordDecodesExactlyToItsCommand : Obligations.WordDecodesExactlyToItsCommand := by
  refine fun i w _ => ⟨fun h => BitVec.eq_of_toNat_eq ?_, fun h => h ▸ decode_encode i⟩
  obtain ⟨hz, hop⟩ := (decode_eq_instr_iff w i).1 h
  obtain ⟨-, -, hvalue, -⟩ := encoding_statement i
  have hz : w.toNat / 16 = 0 := (zField_eq_zero_iff w).1 hz
  calc w.toNat = w.toNat % 16 := by omega
    _ = (opField w).toNat := (opField_toNat w).symm
    _ = (opcode i).toNat := congrArg BitVec.toNat ((decodeOp_eq_some_iff _ i).1 hop)
    _ = (encode i).toNat := hvalue.symm

end Sys2Proof
end

section
/-! PROOFS. The statements about every command (30_encoding.md R85, R86, R88): that it completes, what it leaves alone
and what it writes, and the lemmas they need about a completed command's shape and about the cells of a byte output. -/

namespace Sys2Proof.Machine

/-! ### The completion -/

theorem Shape.completion {s t : State} (h : Shape s t) : t.status.busy = false ∧ t.status.done = true := by
  cases h with
  | error | scalar | bytes => exact ⟨rfl, rfl⟩

theorem eq_of_exec {i : Instr} {s t u : State} (h : exec i s = .next t) (h' : exec i s = .next u) : t = u :=
  Host.Outcome.next.inj (h.symm.trans h')

/-- No command that was decoded completes with ILLEGAL_CMD (60_exceptions.md R171). -/
theorem exec_err {i : Instr} {s t : State} (h : exec i s = .next t) :
    t.status.err = 0 ∨ t.status.err = 1 ∨ t.status.err = 3 := by
  obtain ⟨⟨u, hpack, hpack_err, -⟩, ⟨u₂, hheader, hheader_err, -⟩, ⟨u₃, hempty, hempty_err, -⟩, hranged,
    ⟨u₄, hbody, hbody_err, -⟩, -, -⟩ := errorCodePerCommand s
  have hranged (hi : i ∈ [Instr.checksum, .escape, .unescape]) : t.status.err = 0 ∨ t.status.err = 1 := by
    obtain ⟨u, hu, hfails, hok, -⟩ := hranged i hi
    obtain rfl := eq_of_exec h hu
    by_cases hf : s.RangeFails
    · exact .inr (hfails hf)
    · exact .inl (hok hf)
  cases i with
  | pack =>
    obtain rfl := eq_of_exec h hpack
    rw [hpack_err]
    split_ifs <;> simp
  | buildHeader =>
    obtain rfl := eq_of_exec h hheader
    exact .inl hheader_err
  | checksum | escape | unescape => exact (hranged (by decide)).imp_right .inl
  | encodeWithBody =>
    obtain rfl := eq_of_exec h hbody
    rw [hbody_err]
    split_ifs <;> simp
  | encodeHeaderOnly =>
    obtain rfl := eq_of_exec h hempty
    exact .inl hempty_err

/-- Settles O9: the three shapes are completions, and the code is the command's. -/
theorem everyCommandCompletes : Obligations.EveryCommandCompletes := by
  intro i s
  obtain ⟨t, ht, hshape⟩ := exec_shape i s
  obtain ⟨hbusy, hdone⟩ := hshape.completion
  exact ⟨t, ht, hbusy, hdone, exec_err ht⟩

/-! ### The frame -/

theorem State.afterIbufRead_eq (s : State) (a n : Nat) :
    s.afterIbufRead a n =
      { s with faults := (s.afterIbufRead a n).faults, draws := (s.afterIbufRead a n).draws } := by
  cases h : s.ibufUnwritten a n with
  | false => rw [State.afterIbufRead_of_written h]
  | true =>
    rw [State.afterIbufRead_of_unwritten h]
    rfl

/-- The only fields that a command can change (10_state.md R22, "written by core"). -/
theorem Shape.eq_outputs {s t : State} (h : Shape s t) :
    t = { s with
      status := t.status, result := t.result, outLen := t.outLen, obuf := t.obuf, events := t.events,
      faults := t.faults, draws := t.draws } := by
  cases h with
  | error => rfl
  | scalar a n | bytes a n =>
    rw [diagnose_eq, State.afterIbufRead_eq]
    rfl

/-- Settles O10: every other field is outside the outputs of a completed command. -/
theorem commandsLeaveOperandsUnchanged : Obligations.CommandsLeaveOperandsUnchanged := by
  intro i s t h
  have hshape := shape_of_exec h
  have hfaults := hshape.faults
  rw [hshape.eq_outputs]
  exact ⟨rfl, rfl, rfl, rfl, rfl, rfl, rfl, rfl, rfl, rfl, rfl, rfl, rfl, rfl, rfl, fun _ => rfl, rfl, rfl, rfl, rfl,
    rfl, hfaults⟩

/-! ### The outputs (30_encoding.md R88) -/

/-- The cells below `OUT_LEN` are written and the others are as they were (10_state.md R37, R47). -/
def WritesBelowOutLen (s t : State) : Prop :=
  ∀ a, (a < t.outLen.toNat → (t.obuf.read a).isSome) ∧ (t.outLen.toNat ≤ a → t.obuf.read a = s.obuf.read a)

/-- A byte output of a length that a register can hold, in a state that has left OBUF as it was in `s`. -/
theorem writesBelowOutLen_setOutput {s u : State} (hu : u.obuf = s.obuf) {out : List Byte}
    (hout : out.length < 2 ^ 32) : WritesBelowOutLen s (u.setOutput out) := by
  intro a
  have hlen : (u.setOutput out).outLen.toNat = out.length := Nat.mod_eq_of_lt hout
  rw [hlen, State.setOutput_read, hu]
  refine ⟨fun ha => ?_, fun ha => if_neg (Nat.not_lt.2 ha)⟩
  rw [if_pos ha, List.getElem?_eq_getElem ha]
  rfl

/-- The completion and RESULT come on top of the output. -/
theorem writesBelowOutLen_complete {s u : State} (hu : u.obuf = s.obuf) {out : List Byte} (hout : out.length < 2 ^ 32)
    (e : BitVec 4) (ovf : Bool) (v : BitVec 24) :
    WritesBelowOutLen s (complete e ovf ((u.setOutput out).setResult v)) :=
  writesBelowOutLen_setOutput hu hout

/-- The constraints on the parameters, as inequalities (00_scope.md R11). -/
theorem params_bounds {p : Config.Params} (hp : p.wf = true) :
    1 ≤ p.ibufBytes ∧ p.ibufBytes ≤ 32754 ∧ 2 * p.ibufBytes + 28 ≤ p.obufBytes ∧ p.obufBytes ≤ 65536 := by
  simpa only [Config.Params.wf, Bool.and_eq_true, decide_eq_true_eq, and_assoc] using hp

/-- The output of ESCAPE and UNESCAPE fits `OUT_LEN`, since the range check bounds `n` (43_escape.md R136, R144). -/
theorem runTransform_outputs {f : List Byte → Nat → Nat → List Byte}
    (hf : ∀ buf st en, st ≤ en → (f buf st en).length ≤ 2 * buf.length) {s : State} (hp : s.params.wf = true)
    (herr : (runTransform f s).status.err = 0) :
    (runTransform f s).result = 0 ∧ (runTransform f s).events = s.events ∧ WritesBelowOutLen s (runTransform f s) := by
  have hok : ¬s.RangeFails := by
    intro h
    simp [runTransform_fails f h, completed] at herr
  obtain ⟨-, -, -, hle, -, hfit⟩ := State.rangeIs_of_not_fails hok
  have hlen := hf (s.ibufBytes 0 s.inCount) s.startIdx s.stopIdx hle
  rw [State.length_ibufBytes] at hlen
  obtain ⟨-, hmax, -, -⟩ := params_bounds hp
  refine ⟨?_, runTransform_events f s, ?_⟩
  · rw [runTransform_ok (State.rangeError_of_not_fails hok)]
    rfl
  · rw [runTransform_ok (State.rangeError_of_not_fails hok)]
    exact writesBelowOutLen_complete (s.afterIbufRead_obuf 0 s.inCount) (by omega) 0 false 0

/-- A frame fits OBUF where its body fits IBUF (44_frame.md R155). -/
theorem writesBelowOutLen_finishFrame {s u : State} (hu : u.obuf = s.obuf) (hp : u.params.wf = true) {body : List Byte}
    (hfit : body.length ≤ u.params.ibufBytes) (ovf : Bool) : WritesBelowOutLen s (finishFrame body ovf u) :=
  writesBelowOutLen_complete hu (length_encodeFrame_fits hp hfit ..).2 0 ovf _

/-- With `ERR = 0` a body was framed, so it fits IBUF; the event is that of a length that overflowed (44_frame.md R152,
R157). -/
theorem runEncodeWithBody_outputs {s : State} (hp : s.params.wf = true) (herr : (runEncodeWithBody s).status.err = 0) :
    (runEncodeWithBody s).events = s.events ++ (if 1024 ≤ s.inLen.toNat then [.diagOvf s.inLen] else []) ∧
      WritesBelowOutLen s (runEncodeWithBody s) := by
  have hfit : s.inCount ≤ s.params.ibufBytes := by
    by_contra hn
    simp [runEncodeWithBody_range (Nat.not_le.1 hn), errorCode] at herr
  have hok : s.inCount < 1024 ∨ s.refusing = false := by
    by_contra hn
    obtain ⟨ho, hr⟩ := not_or.1 hn
    simp [runEncodeWithBody_refused hfit (Nat.not_lt.1 ho) (Bool.eq_true_of_not_eq_false hr), errorCode] at herr
  rw [runEncodeWithBody_framed hfit hok]
  refine ⟨?_, writesBelowOutLen_finishFrame (by simp) (by simpa using hp) ?_ _⟩
  · simp only [finishFrame_events, diagnose_events, State.afterIbufRead_events, decide_eq_true_eq]
    rw [State.inCount, BitVec.ofNat_toNat, BitVec.setWidth_eq]
  · simpa [State.length_ibufBytes] using hfit

/-- Settles O13: by the command, once its code leaves only the case that writes. -/
theorem outputsPerCommand : Obligations.OutputsPerCommand := by
  intro i s t hp h herr
  cases i with
  | pack =>
    obtain ⟨hpacked, hrefused⟩ := packEffect s
    by_cases hok : s.bodyLen.toInt < 1024 ∨ s.ctrl = 0
    · obtain rfl := eq_of_exec h (hpacked hok)
      exact ⟨rfl, rfl, rfl⟩
    · obtain ⟨ho, hc⟩ := not_or.1 hok
      obtain rfl := eq_of_exec h (hrefused (Int.not_lt.1 ho) ((BitVec.eq_zero_or_eq_one s.ctrl).resolve_left hc))
      simp [completed] at herr
  | buildHeader =>
    cases h
    have hlen : (buildHeader s.phone s.msgType s.bodyProps s.flowId).length < 2 ^ 32 := by
      rw [length_buildHeader]
      decide
    exact ⟨rfl, rfl, rfl, writesBelowOutLen_complete (u := s) rfl hlen 0 false 0⟩
  | checksum =>
    cases h
    by_cases hf : s.RangeFails
    · simp [runChecksum_error (State.rangeError_of_fails hf)]
    · simp [runChecksum_ok (State.rangeError_of_not_fails hf)]
  | escape =>
    cases h
    exact runTransform_outputs (length_escape_le _) hp herr
  | unescape =>
    cases h
    exact runTransform_outputs (fun buf st en hle => (length_unescape_le buf st en hle).trans (by omega)) hp herr
  | encodeWithBody =>
    cases h
    exact runEncodeWithBody_outputs hp herr
  | encodeHeaderOnly =>
    cases h
    exact ⟨rfl, writesBelowOutLen_finishFrame rfl hp (Nat.zero_le _) false⟩

end Sys2Proof.Machine
end

section
/-! PROOFS. The statement about the receiver of a frame (42_checksum.md R122 with 43_escape.md R145, R146). -/

namespace Sys2Proof.Machine

/-- What stands between the two delimiters of a frame with an escaped checksum. -/
theorem slice_encodeFrame {p : Config.Params} (hc : p.escapeChecksum = true) (body : List Byte) (fid : Half)
    (phone : Vector Byte 6) (mt : Half) :
    slice (encodeFrame p body fid phone mt) 1 ((encodeFrame p body fid phone mt).length - 1) =
      escRange p (framePayload body fid phone mt ++ [checksum (framePayload body fid phone mt)]) := by
  have hframe := encodeFrame_of_escapeChecksum hc body fid phone mt
  generalize escRange p _ = inner at hframe ⊢
  have hlen : (delim :: (inner ++ [delim])).length - 1 = [delim].length + inner.length := by
    simp only [List.length_cons, List.length_append, List.length_nil]
    omega
  rw [hframe, hlen]
  exact slice_append [delim] inner [delim]

/-- Settles O39: the interior is the escaped range, which comes back, and a string followed by its checksum cancels. -/
theorem receiverRecoversFrame : Obligations.ReceiverRecoversFrame := by
  intro p body fid mt phone hc h
  have hback : unescRange (slice (encodeFrame p body fid phone mt) 1 ((encodeFrame p body fid phone mt).length - 1)) =
      framePayload body fid phone mt ++ [checksum (framePayload body fid phone mt)] := by
    rw [slice_encodeFrame hc]
    cases hp : p.symmetricEscape with
    | true => exact unescRange_escRange_symmetric hp _
    | false =>
      rw [unescRange_escRange_asymmetric hp]
      exact (unescRange_eq_self_iff _).2 (h.resolve_left (Bool.eq_false_iff.1 hp))
  exact ⟨hback, (congrArg checksum hback).trans (checksum_append_self _)⟩

end Sys2Proof.Machine
end

section
/-! PROOFS. The statements about the invariant of the machine (`State.Inv`): it holds after reset, and each operation of
a step keeps it. One lemma an operation, then one for each of the things a step can do: an access, a command, a turn. -/

namespace Sys2Proof.Machine

/-- Settles O54: the parameters are this hardware's, and the other clauses are about empty buffers and zero registers. -/
theorem resetSatisfiesInvariant : Obligations.ResetSatisfiesInvariant where
  paramsWf := by decide
  ibufWf := .nil
  ibufBelow := nofun
  obufWf := .nil
  obufBelow := nofun
  notBusyAndDone := nofun
  errLegal := Nat.zero_le 3
  clearUntilDone := fun _ => ⟨rfl, rfl⟩
  ovfOnLenOverflow := nofun
  noOvfOnOtherError := fun _ => rfl
  outLenBound := Nat.zero_le _
  outputWritten := fun a ha => absurd ha (Nat.not_lt_zero a)
  hazardRecorded := nofun

/-- The codes are at most 3, and OVF goes with LEN_OVERFLOW alone (60_exceptions.md R170, R171). -/
theorem errorCode_legal (e : CmdError) :
    (errorCode e).toNat ≤ 3 ∧ (errorCode e = 3 → errorOvf e = true) ∧
      (errorCode e = 1 ∨ errorCode e = 2 → errorOvf e = false) := by
  cases e <;> decide

namespace State.Inv

variable {s : State}

/-! ### Operations that reach nothing the invariant speaks of -/

theorem reply (h : s.Inv) (r : Reply) : (s.reply r).Inv := { h with }

theorem draw (h : s.Inv) : s.draw.Inv := { h with }

theorem setHost (h : s.Inv) (ops : List HostOp) : (s.setHost ops).Inv := { h with }

theorem setTurns (h : s.Inv) (turns : List Agent) : (s.setTurns turns).Inv := { h with }

theorem setResult (h : s.Inv) (v : BitVec 24) : (s.setResult v).Inv := { h with }

theorem recordBusFault (h : s.Inv) : s.recordBusFault.Inv := { h with }

theorem recordUninitRead (h : s.Inv) : s.recordUninitRead.Inv := { h with }

theorem storeReg (h : s.Inv) (r : Reg) (v : Word) : (storeReg r v s).Inv := by
  cases r <;> exact { h with }

theorem diagnose (h : s.Inv) (ovf : Bool) (v : Word) : (diagnose ovf v s).Inv := by
  rw [diagnose_eq]
  exact { h with }

theorem afterIbufRead (h : s.Inv) (a n : Nat) : (s.afterIbufRead a n).Inv := by
  cases hw : s.ibufUnwritten a n with
  | false => rwa [afterIbufRead_of_written hw]
  | true =>
    rw [afterIbufRead_of_unwritten hw]
    exact h.recordUninitRead.draw

/-! ### The buffers -/

/-- A cell inside IBUF_BYTES is written (10_state.md R46). -/
theorem setIbuf (h : s.Inv) {i : Nat} (hi : i < s.params.ibufBytes) (b : Byte) : (s.setIbuf i b).Inv :=
  { h with
    ibufWf := Memory.wf_write _ i [b] h.ibufWf
    ibufBelow := Memory.below_write _ i [b] _ h.ibufBelow hi }

/-- An output that fits OBUF is written, and `OUT_LEN` counts its cells (10_state.md R37, R47). -/
theorem setOutput (h : s.Inv) {out : List Byte} (hout : out.length ≤ s.params.obufBytes) : (s.setOutput out).Inv := by
  obtain ⟨-, -, -, hmax⟩ := params_bounds h.paramsWf
  have hlt : out.length < 2 ^ 32 := by omega
  exact
    { h with
      obufWf := Memory.wf_write _ 0 out h.obufWf
      obufBelow := Memory.below_write _ 0 out _ h.obufBelow ((Nat.zero_add _).trans_le hout)
      outLenBound := (Nat.mod_eq_of_lt hlt).trans_le hout
      outputWritten := fun a => (writesBelowOutLen_setOutput (u := s) rfl hlt a).1 }

/-! ### STATUS and hazards -/

/-- While BUSY = 0 the run is defined (log entry 5). -/
theorem hazarded_of_idle (h : s.Inv) (hb : s.status.busy = false) : s.hazarded = false :=
  Bool.eq_false_iff.2 fun hz => Bool.eq_false_iff.1 hb (h.hazardRecorded hz).2

/-- Acceptance while idle (30_encoding.md R84). -/
theorem accept (h : s.Inv) (hb : s.status.busy = false) (w : Word) : (accept w s).Inv :=
  { h with
    notBusyAndDone := nofun
    errLegal := Nat.zero_le 3
    clearUntilDone := fun _ => ⟨rfl, rfl⟩
    ovfOnLenOverflow := nofun
    noOvfOnOtherError := fun _ => rfl
    hazardRecorded := fun hz => absurd hz (Bool.eq_false_iff.1 (h.hazarded_of_idle hb)) }

/-- Completion with a code and an OVF that go together (30_encoding.md R86, 60_exceptions.md R170). -/
theorem complete (h : s.Inv) (hz : s.hazarded = false) {e : BitVec 4} {ovf : Bool} (hle : e.toNat ≤ 3)
    (hthree : e = 3 → ovf = true) (hother : e = 1 ∨ e = 2 → ovf = false) : (complete e ovf s).Inv :=
  { h with
    notBusyAndDone := nofun
    errLegal := hle
    clearUntilDone := nofun
    ovfOnLenOverflow := hthree
    noOvfOnOtherError := hother
    hazardRecorded := fun hz' => absurd hz' (Bool.eq_false_iff.1 hz) }

/-- Completion without an error. -/
theorem complete_zero (h : s.Inv) (hz : s.hazarded = false) (ovf : Bool) : (Machine.complete 0 ovf s).Inv :=
  h.complete hz (Nat.zero_le 3) nofun nofun

/-- Completion with an error (60_exceptions.md R170, R171). -/
theorem raise (h : s.Inv) (hz : s.hazarded = false) (e : CmdError) : (raise e s).Inv := by
  obtain ⟨hle, hthree, hother⟩ := errorCode_legal e
  exact h.complete hz hle hthree hother

/-- A hazard is recorded in a busy FCC (70_reset_and_hazards.md R195, log entry 5). -/
theorem recordHostHazard (h : s.Inv) (hb : s.status.busy = true) : s.recordHostHazard.Inv :=
  { h with hazardRecorded := fun _ => ⟨rfl, hb⟩ }

/-- Reset brings back every field the invariant speaks of but the parameters, which it keeps (70_reset_and_hazards.md
R190). -/
theorem resetStep (h : s.Inv) : (resetStep s).Inv :=
  { resetSatisfiesInvariant with
    paramsWf := h.paramsWf
    ibufBelow := nofun
    obufBelow := nofun
    outLenBound := Nat.zero_le _
    hazardRecorded := nofun }

end State.Inv

/-! ### The things a step can do -/

/-- One access of the host keeps the invariant, also where it is a bus error or a hazard (20_memory.md R62 to R64). -/
theorem AccessEffect.inv {s t : State} (h : AccessEffect s t) (hs : s.Inv) : t.Inv := by
  cases h with
  | answer r => exact hs.reply r
  | drawn r => exact hs.draw.reply r
  | busWrite => exact hs.recordBusFault.reply _
  | busRead r => exact hs.recordBusFault.draw.reply r
  | register _ r v => exact (hs.storeReg r v).reply _
  | cell _ i b inside => exact (hs.setIbuf inside b).reply _
  | accepted idle w => exact (hs.accept idle w).reply _
  | registerHazard busy r v =>
    have hb : (storeReg r v s.draw).status.busy = true := by
      obtain ⟨-, -, hstatus, -⟩ := storeReg_frame r v s.draw
      rw [hstatus]
      exact busy
    exact ((hs.draw.storeReg r v).recordHostHazard hb).reply _
  | cellHazard busy i b inside => exact ((hs.draw.setIbuf inside b).recordHostHazard busy).reply _

/-- A command keeps the invariant: its outputs fit OBUF, and its completion is legal. -/
theorem Shape.inv {s t : State} (h : Shape s t) (hs : s.Inv) (hz : s.hazarded = false) : t.Inv := by
  cases h with
  | error e => exact hs.raise hz e
  | scalar a n ovf w v =>
    exact (((hs.afterIbufRead a n).diagnose ovf w).setResult v).complete_zero (by simpa using hz) ovf
  | bytes a n ovf w out v fits =>
    obtain ⟨-, -, hroom, -⟩ := params_bounds hs.paramsWf
    have hout : out.length ≤ (diagnose ovf w (s.afterIbufRead a n)).params.obufBytes := by
      rw [diagnose_params, State.afterIbufRead_params]
      exact fits.trans hroom
    exact ((((hs.afterIbufRead a n).diagnose ovf w).setOutput hout).setResult v).complete_zero (by simpa using hz) ovf

theorem hostTurn_inv {s : State} (hs : s.Inv) : (hostTurn s).Inv := by
  obtain h | ⟨rest, h⟩ | h | ⟨rest, -, h⟩ := hostTurn_cases s
  · rwa [h]
  · exact h.inv (hs.setHost rest)
  · exact h.inv hs
  · rw [h]
    exact (hs.setHost rest).resetStep

/-- Settles O55: by the cases of a step, each an operation that keeps the invariant. -/
theorem stepKeepsInvariant : Obligations.StepKeepsInvariant := by
  intro s t hs h
  have hturn : (takeTurn s).Inv := hs.setTurns _
  obtain ⟨-, rest, -, rfl⟩ | ⟨hz, ⟨-, -, rfl⟩ | ⟨-, -, i, -, h⟩ | ⟨-, -, -, rfl⟩ | ⟨-, rfl⟩⟩ := step_cases h
  · exact (hturn.setHost rest).resetStep
  · exact hturn
  · exact (shape_of_exec h).inv hturn hz
  · exact hturn.raise hz .illegalCmd
  · exact hostTurn_inv hturn

end Sys2Proof.Machine
end

section
/-! PROOFS. The statements about single steps: which agent moves and what an idle or hazarded FCC does (30_encoding.md
R84 to R86, 70_reset_and_hazards.md R195), what a read answers (20_memory.md R70, 10_state.md R22), and who writes what
(10_state.md R46, R47). -/

namespace Sys2Proof.Machine

/-! ### The core's turn (30_encoding.md R85) -/

/-- Settles O4: the core's turn, with `takeTurn` written out. -/
theorem coreStepRunsDecodedCommand : Obligations.CoreStepRunsDecodedCommand :=
  fun _ _ h hd => step_instr h hd

theorem decode_of_decodeTableWord {nbits w : Nat} {i : Instr} (h : decodeTableWord nbits w = some i) :
    decode (BitVec.ofNat 32 w) = .instr i := by
  unfold decodeTableWord at h
  split_ifs at h
  cases hd : decode (BitVec.ofNat 32 w) with
  | instr j =>
    rw [hd] at h
    rw [Option.some.inj h]
  | illegal why =>
    rw [hd] at h
    cases h

/-- Settles O5: `withFetchWord` leaves the word in CMD, BUSY set and the core's turn next. -/
theorem fetchedWordRunsNext : Obligations.FetchedWordRunsNext := by
  intro s nbits w i _ _ h
  have hcore : CoreNext (s.withFetchWord nbits w) := ⟨rfl, rfl, rfl⟩
  exact step_instr hcore (decode_of_decodeTableWord h)

/-- The core answers a next state, whatever it does. -/
theorem coreTurn_next (s : State) : ∃ t, coreTurn s = .next t := by
  unfold coreTurn
  split
  · split
    · obtain ⟨t, ht, -⟩ := exec_shape _ s
      exact ⟨t, ht⟩
    · exact ⟨_, rfl⟩
  · exact ⟨_, rfl⟩

theorem step_core {s : State} (hz : s.hazarded = false) (ha : nextAgent s = .core) :
    step s = coreTurn (takeTurn s) := by
  rw [step, hz, ha]
  rfl

theorem step_host {s : State} (hz : s.hazarded = false) (ha : nextAgent s = .host) :
    step s = .next (hostTurn (takeTurn s)) := by
  rw [step, hz, ha]
  rfl

/-- Settles O6: an idle core and a host with nothing to do leave the state that `takeTurn` gives. -/
theorem idleStepsOnlyAdvanceSchedule : Obligations.IdleStepsOnlyAdvanceSchedule := by
  refine fun s hz => ⟨fun ha hb => ?_, fun ha hh => ?_⟩
  · have hidle : ¬(takeTurn s).status.busy = true := Bool.eq_false_iff.1 hb
    rw [step_core hz ha, coreTurn, if_neg hidle]
    rfl
  · have hempty : (takeTurn s).host = [] := hh
    rw [step_host hz ha, hostTurn, hempty]
    rfl

/-! ### Hazards (70_reset_and_hazards.md R195, log entry 5) -/

/-- A hazardous write of a register leaves STATUS alone (log entry 5). -/
theorem writeReg_busy_status {r : Reg} {s : State} (hb : s.status.busy = true) (v : Word) :
    (writeReg r v s).status = s.status := by
  obtain ⟨-, -, hstatus, -⟩ := storeReg_frame r (Config.unspecWord s.draws) s.draw
  unfold writeReg
  rw [if_pos hb]
  split_ifs
  · exact hstatus
  · rfl

/-- Settles O7: the write of CMD is an acceptance while idle and a hazard while busy. -/
theorem cmdWriteAcceptedWhenIdle : Obligations.CmdWriteAcceptedWhenIdle := by
  intro s w rest h
  have hstep := step_write_register (r := .cmd) h
  refine ⟨fun hb => ?_, fun hb => ⟨_, hstep, writeReg_busy_status (s := taken s rest) hb w, ?_⟩⟩
  · rw [hstep, writeReg_cmd (s := taken s rest) hb]
    rfl
  · have hfaults := writeReg_busy_faults (r := .cmd) (s := taken s rest) rfl hb w
    rw [State.reply_faults, hfaults]

/-- Settles O47: after a hazard only the reset input is a step, and without one each turn answers a next state. -/
theorem hazardStopsUntilReset : Obligations.HazardStopsUntilReset := by
  refine fun s => ⟨fun hz hh => ?_, fun hz rest hh => ⟨_, step_reset hh (.inl hz), rfl⟩, fun hz => ?_⟩
  · rw [step, if_pos hz, stepAfterHazard]
    split
    · exact absurd ‹_› (hh _)
    · rfl
  · cases ha : nextAgent s with
    | core => exact step_core hz ha ▸ coreTurn_next (takeTurn s)
    | host => exact ⟨_, step_host hz ha⟩

/-! ### Accesses that only answer (20_memory.md R70) -/

/-- The port answers, which can draw a value and record a bus error, and nothing else happens. -/
def OnlyAnswers (s t : State) : Prop :=
  ∃ r n b, t = { s with replies := s.replies ++ [r], draws := n, faults := { s.faults with busFault := b } }

theorem onlyAnswers_replyCell (c : Option Byte) (i : Nat) (s : State) : OnlyAnswers s (replyCell c i s) := by
  cases c with
  | none => exact ⟨_, _, _, rfl⟩
  | some b => exact ⟨_, _, _, rfl⟩

theorem onlyAnswers_read32 (a : Nat) (s : State) : OnlyAnswers s (read32 a s) := by
  unfold read32
  split
  · split_ifs
    · exact ⟨_, _, _, rfl⟩
    · exact ⟨_, _, _, rfl⟩
  · exact ⟨_, _, _, rfl⟩

theorem onlyAnswers_read8 (a : Nat) (s : State) : OnlyAnswers s (read8 a s) := by
  unfold read8
  split
  · exact onlyAnswers_replyCell ..
  · exact onlyAnswers_replyCell ..
  · exact ⟨_, _, _, rfl⟩

theorem mem_rwOffsets_of_writable {r : Reg} (h : regWritable r = true) : regOffset r ∈ rwOffsets := by
  cases r with
  | status | result | outLen | id | cfg | ibufSize | obufSize => cases h
  | _ => decide

/-- A 32-bit write of an RO register, or one that is a bus error (20_memory.md R62, R64). -/
theorem onlyAnswers_write32 {a : Nat} (h : a ∉ rwOffsets) (v : Word) (s : State) : OnlyAnswers s (write32 a v s) := by
  unfold write32
  split
  · rename_i r hr
    have hro : regWritable r = false :=
      Bool.eq_false_iff.2 fun hw => h (regAt_eq_some hr ▸ mem_rwOffsets_of_writable hw)
    rw [writeReg_readOnly hro]
    exact ⟨_, _, _, rfl⟩
  · exact ⟨_, _, _, rfl⟩

/-- An 8-bit write of OBUF, or one that is a bus error (20_memory.md R63, R64). -/
theorem onlyAnswers_write8 {a : Nat} {s : State} (h : ibufIndex s.params a = none) (b : Byte) :
    OnlyAnswers s (write8 a b s) := by
  rw [write8, h]
  cases obufIndex s.params a with
  | none => exact ⟨_, _, _, rfl⟩
  | some i => exact ⟨_, _, _, rfl⟩

theorem onlyAnswers_read {x : PortAccess} (h : IsReadAccess x) (s : State) : OnlyAnswers s (portAccess x s) := by
  cases x with
  | read32 a => exact onlyAnswers_read32 a s
  | read8 a => exact onlyAnswers_read8 a s
  | write32 | write8 => cases h

/-- A read, and a write that is no hazard (70_reset_and_hazards.md R195). -/
theorem onlyAnswers_quiet {x : PortAccess} {s : State} (h : IsQuiet s.params (.access x)) :
    OnlyAnswers s (portAccess x s) := by
  cases x with
  | read32 a => exact onlyAnswers_read32 a s
  | read8 a => exact onlyAnswers_read8 a s
  | write32 a v => exact onlyAnswers_write32 h v s
  | write8 a b => exact onlyAnswers_write8 ((ibufIndex_eq_none_iff s.params a).2 h) b

/-- One read of the `wait` loop: STATUS is answered, and the loop ends when its DONE is 1 (30_encoding.md R93). -/
theorem hostTurn_waitDone {s : State} {rest : List HostOp} (h : s.host = .waitDone :: rest) :
    hostTurn s = (if s.status.done then s.setHost rest else s).reply (.word s.status.word) := by
  simp only [hostTurn, h, read32_status, regBusyUnspecified, Bool.and_false, Bool.false_eq_true, if_false]
  split_ifs <;> rfl

theorem step_waitDone {s : State} {rest : List HostOp} (h : HostNext s .waitDone rest) :
    step s = .next { taken s (if s.status.done then rest else s.host) with
      replies := s.replies ++ [.word s.status.word] } := by
  have hh : (takeTurn s).host = .waitDone :: rest := h.2.2
  have hstatus : (takeTurn s).status = s.status := rfl
  rw [step_hostNext h, hostTurn_waitDone hh, hstatus]
  split_ifs <;> rfl

theorem Status.word_done (st : Status) : st.word.getLsbD 1 = st.done := by
  have : ∀ (b d o : Bool) (e : BitVec 4),
      (Status.word { busy := b, done := d, ovf := o, err := e }).getLsbD 1 = d := by decide
  exact this _ _ _ _

/-- Settles O49: a read only answers, and a read of STATUS answers its word. -/
theorem readsHaveNoSideEffect : Obligations.ReadsHaveNoSideEffect := by
  refine fun s rest => ⟨fun x hx h => ?_, fun h => ⟨_, step_waitDone h, s.status.word_done⟩⟩
  rw [step_access h]
  obtain ⟨r, n, b, heq⟩ := onlyAnswers_read hx (taken s rest)
  exact ⟨r, n, b, congrArg _ heq⟩

/-! ### What a register read answers (10_state.md R22, R25) -/

theorem Status.word_toNat (st : Status) :
    st.word.toNat = st.busy.toNat + 2 * st.done.toNat + 4 * st.ovf.toNat + 16 * st.err.toNat := by
  have : ∀ (b d o : Bool) (e : BitVec 4), (Status.word { busy := b, done := d, ovf := o, err := e }).toNat =
      b.toNat + 2 * d.toNat + 4 * o.toNat + 16 * e.toNat := by decide
  exact this _ _ _ _

/-- Settles O41: STATUS answers its word at any time. -/
theorem statusReadLayout : Obligations.StatusReadLayout := by
  intro s rest h
  exact ⟨_, step_read_register (r := .status) h (Bool.and_false _), s.status.word_toNat⟩

theorem outputTable_eq_map (s : State) :
    outputTable s = [Reg.result, .outLen].map fun r => (regOffset r, readReg s r) := rfl

/-- Any read of a register answers some word (70_reset_and_hazards.md R196). -/
theorem step_read_register_answers {s : State} {r : Reg} {rest : List HostOp}
    (h : HostNext s (.access (.read32 (regOffset r))) rest) :
    ∃ w n, step s = .next { taken s rest with replies := s.replies ++ [.word w], draws := n } := by
  cases hr : s.status.busy && regBusyUnspecified r with
  | false => exact ⟨_, s.draws, step_read_register h hr⟩
  | true =>
    obtain ⟨hb, hu⟩ := Bool.and_eq_true_iff.1 hr
    exact step_read_register_unspecified h hb hu

/-- Settles O43: the two tables are the register map, split by what a busy read answers. -/
theorem registerReadAnswers : Obligations.RegisterReadAnswers := by
  refine ⟨fun s a v rest h => ⟨fun hm => ?_, fun hb hm => ?_, fun ha => ?_⟩, fun s r => ?_⟩
  · obtain ⟨r, hr, rfl, rfl⟩ := mem_readTable hm
    exact step_read_register h (by rw [hr, Bool.and_false])
  · rw [outputTable_eq_map, List.mem_map] at hm
    obtain ⟨r, -, hav⟩ := hm
    cases hav
    exact step_read_register h (by rw [hb, Bool.false_and])
  · obtain rfl | rfl : a = regOffset .result ∨ a = regOffset .outLen := by simpa [regOffset] using ha
    · exact step_read_register_answers h
    · exact step_read_register_answers h
  · rw [readTable_eq_map, outputTable_eq_map, ← List.map_append]
    exact List.mem_map_of_mem (by cases r <;> decide)

/-! ### Who writes what (10_state.md R46, R47, R53) -/

theorem Shape.ibuf {s t : State} (h : Shape s t) : t.ibuf = s.ibuf := by
  rw [h.eq_outputs]

theorem Shape.params {s t : State} (h : Shape s t) : t.params = s.params := by
  rw [h.eq_outputs]

/-- An access leaves the parameters and the outputs. -/
theorem AccessEffect.outputs {s t : State} (h : AccessEffect s t) :
    t.params = s.params ∧ t.obuf = s.obuf ∧ t.result = s.result ∧ t.outLen = s.outLen := by
  obtain ⟨hparams, -, hobuf, hresult, houtLen, -⟩ := access_kept h
  exact ⟨hparams, hobuf, hresult, houtLen⟩

/-- The host's turn leaves the parameters, and the outputs too unless it takes the reset input. -/
theorem hostTurn_kept (s : State) :
    (hostTurn s).params = s.params ∧ ((∀ rest, s.host ≠ .reset :: rest) →
      (hostTurn s).obuf = s.obuf ∧ (hostTurn s).result = s.result ∧ (hostTurn s).outLen = s.outLen) := by
  obtain h | ⟨rest, h⟩ | h | ⟨rest, hh, h⟩ := hostTurn_cases s
  · rw [h]
    exact ⟨rfl, fun _ => ⟨rfl, rfl, rfl⟩⟩
  · obtain ⟨hparams, houtputs⟩ := h.outputs
    exact ⟨hparams, fun _ => houtputs⟩
  · obtain ⟨hparams, houtputs⟩ := h.outputs
    exact ⟨hparams, fun _ => houtputs⟩
  · rw [h]
    exact ⟨rfl, fun hn => absurd hh (hn rest)⟩

/-- Settles O58: by the cases of a step. -/
theorem onlyCoreWritesOutputs : Obligations.OnlyCoreWritesOutputs := by
  intro s t h
  obtain ⟨hz, rest, hh, rfl⟩ | ⟨-, ⟨-, -, rfl⟩ | ⟨ha, -, i, -, h⟩ | ⟨-, -, -, rfl⟩ | ⟨ha, rfl⟩⟩ := step_cases h
  · exact ⟨fun _ hn => absurd hh (hn rest), fun hz' => absurd hz (Bool.eq_false_iff.1 hz'), rfl⟩
  · exact ⟨fun _ _ => ⟨rfl, rfl, rfl⟩, fun _ _ => rfl, rfl⟩
  · have hshape := shape_of_exec h
    exact ⟨fun ha' => (nomatch ha.symm.trans ha'), fun _ _ => hshape.ibuf, hshape.params⟩
  · exact ⟨fun _ _ => ⟨rfl, rfl, rfl⟩, fun _ _ => rfl, rfl⟩
  · obtain ⟨hparams, houtputs⟩ := hostTurn_kept (takeTurn s)
    exact ⟨fun _ => houtputs, fun _ ha' => (nomatch ha.symm.trans ha'), hparams⟩

end Sys2Proof.Machine
end

section
/-! PROOFS. The statements about host programs (30_encoding.md R92, R93) and the address map (20_memory.md R61). -/

namespace Sys2Proof.Machine

/-- Settles O52: each statement's accesses are its arm of `expandStmt`; `ldb` and `rdout` list theirs cell by cell. -/
theorem hostStatementsExpand : Obligations.HostStatementsExpand :=
  ⟨fun _ _ => rfl, fun _ => rfl, fun _ _ => rfl, fun _ => rfl, fun _ => rfl, fun _ _ _ => List.getElem?_mapIdx,
    fun _ => rfl, rfl, fun _ => List.map_eq_flatMap⟩

/-- Settles O53: the window is 0x3_0000 bytes long. -/
theorem localOffsetsFromBase : Obligations.LocalOffsetsFromBase := by
  intro addr off
  unfold localOffset
  split_ifs with h
  · rw [Option.some.injEq]
    omega
  · simp only [false_iff]
    omega

end Sys2Proof.Machine
end

section
/-! PROOFS. The statements about the whole run of an accepted command (30_encoding.md R85, 70_reset_and_hazards.md R199),
and the lemmas they need: a quiet host changes nothing but what stands at the port, so the run reaches a core's turn that
differs from the first state there alone; and a command over written cells does not depend on the port. -/

namespace Sys2Proof.Machine

/-! ### What stands at the port -/

/-- `s`, with the port and the schedule as in `p`: what is still to come, what was answered, and the faults and draws
that answering takes. -/
def State.withPortOf (s p : State) : State :=
  { s with host := p.host, turns := p.turns, faults := p.faults, draws := p.draws, replies := p.replies }

@[simp] theorem State.withPortOf_inCount (s p : State) : (s.withPortOf p).inCount = s.inCount := rfl

@[simp] theorem State.withPortOf_startIdx (s p : State) : (s.withPortOf p).startIdx = s.startIdx := rfl

@[simp] theorem State.withPortOf_stopIdx (s p : State) : (s.withPortOf p).stopIdx = s.stopIdx := rfl

/-- `u` differs from `s` at most at the port. -/
def DiffersAtPort (s u : State) : Prop := u = s.withPortOf u

theorem DiffersAtPort.trans {s t u : State} (h : DiffersAtPort s t) (h' : DiffersAtPort t u) : DiffersAtPort s u := by
  unfold DiffersAtPort at *
  calc u = t.withPortOf u := h'
    _ = (s.withPortOf t).withPortOf u := by rw [← h]
    _ = s.withPortOf u := rfl

theorem OnlyAnswers.differsAtPort {s t : State} (h : OnlyAnswers s t) : DiffersAtPort s t := by
  obtain ⟨r, n, b, rfl⟩ := h
  rfl

theorem OnlyAnswers.host_turns {s t : State} (h : OnlyAnswers s t) : t.host = s.host ∧ t.turns = s.turns := by
  obtain ⟨r, n, b, rfl⟩ := h
  exact ⟨rfl, rfl⟩

/-! ### The run to the core's turn -/

/-- The turn of a quiet host happens at the port, and nothing new is to come. -/
theorem hostTurn_quiet {s : State} (hq : ∀ op ∈ s.host, IsQuiet s.params op) :
    DiffersAtPort s (hostTurn s) ∧ (hostTurn s).turns = s.turns ∧ (hostTurn s).host ⊆ s.host := by
  cases hh : s.host with
  | nil =>
    have hidle : hostTurn s = s := by rw [hostTurn, hh]
    rw [hidle, hh]
    exact ⟨rfl, rfl, List.Subset.refl _⟩
  | cons op rest =>
    have hop : IsQuiet s.params op := hq op (hh ▸ List.mem_cons_self)
    cases op with
    | access x =>
      have hturn : hostTurn s = portAccess x (s.setHost rest) := by rw [hostTurn, hh]
      have hanswers : OnlyAnswers (s.setHost rest) (hostTurn s) := hturn ▸ onlyAnswers_quiet (s := s.setHost rest) hop
      obtain ⟨hhost, hturns⟩ := hanswers.host_turns
      have hset : DiffersAtPort s (s.setHost rest) := rfl
      exact ⟨hset.trans hanswers.differsAtPort, hturns, hhost ▸ List.subset_cons_self _ rest⟩
    | waitDone =>
      rw [hostTurn_waitDone hh]
      split_ifs
      · exact ⟨rfl, rfl, List.subset_cons_self _ rest⟩
      · exact ⟨rfl, rfl, hh ▸ List.Subset.refl _⟩
    | reset => exact hop.elim

theorem core_run_one (M : Host.Core) (s : M.State) : M.run 1 s = M.step s := by
  cases h : M.step s <;> simp only [Host.Core.run, h]

theorem run_one_eq_coreTurn {s : State} (hz : s.hazarded = false) (ha : nextAgent s = .core) :
    Sys2Proof.core.run 1 s = coreTurn (takeTurn s) :=
  (core_run_one Sys2Proof.core s).trans (step_core hz ha)

/-- With a command in flight and a quiet host the run comes to the core's turn, within one step more than the schedule
lists (30_encoding.md R85, log entry 1). -/
theorem exists_run_eq_coreTurn {s : State} (hz : s.hazarded = false) (hb : s.status.busy = true)
    (hq : ∀ op ∈ s.host, IsQuiet s.params op) :
    ∃ k u, k ≤ s.turns.length + 1 ∧ Sys2Proof.core.run k s = coreTurn u ∧ DiffersAtPort s u := by
  induction hturns : s.turns generalizing s with
  | nil =>
    have ha : nextAgent s = .core := by rw [nextAgent, hturns]; exact if_pos hb
    exact ⟨1, takeTurn s, Nat.le_refl 1, run_one_eq_coreTurn hz ha, rfl⟩
  | cons a turns ih =>
    have ha : nextAgent s = a := by rw [nextAgent, hturns]
    cases a with
    | core => exact ⟨1, takeTurn s, Nat.le_add_left 1 _, run_one_eq_coreTurn hz ha, rfl⟩
    | host =>
      obtain ⟨hport, hturns', hhost⟩ := hostTurn_quiet (s := takeTurn s) hq
      have hfirst : DiffersAtPort s (hostTurn (takeTurn s)) := DiffersAtPort.trans (t := takeTurn s) rfl hport
      have htail : (hostTurn (takeTurn s)).turns = turns := hturns'.trans (congrArg List.tail hturns)
      have hsame (op : HostOp) (hop : op ∈ (hostTurn (takeTurn s)).host) :
          IsQuiet (hostTurn (takeTurn s)).params op := by
        rw [hfirst]
        exact hq op (hhost hop)
      obtain ⟨k, u, hk, hrun, hu⟩ := ih (by rw [hfirst]; exact hz) (by rw [hfirst]; exact hb) hsame htail
      exact ⟨k + 1, u, Nat.succ_le_succ hk,
        (core_run_next Sys2Proof.core k (step_host hz ha)).trans hrun, hfirst.trans hu⟩

/-! ### Completion -/

/-- The core's turn with a command in flight completes it, legal or not (30_encoding.md R86, 60_exceptions.md R173). -/
theorem coreTurn_completes {s : State} (hb : s.status.busy = true) :
    ∃ t, coreTurn s = .next t ∧ t.status.busy = false ∧ t.status.done = true := by
  rw [coreTurn, if_pos hb]
  split
  · obtain ⟨t, ht, hshape⟩ := exec_shape _ s
    exact ⟨t, ht, hshape.completion⟩
  · exact ⟨_, rfl, rfl, rfl⟩

/-- Settles O59: the run comes to a core's turn, with the command still in flight. -/
theorem acceptedCommandCompletes : Obligations.AcceptedCommandCompletes := by
  intro s hz hb hq
  obtain ⟨k, u, hk, hrun, hu⟩ := exists_run_eq_coreTurn hz hb hq
  obtain ⟨t, ht, hdone⟩ := coreTurn_completes (s := u) (by rw [hu]; exact hb)
  exact ⟨k, t, hk, hrun.trans ht, hdone⟩

/-! ### A command does not depend on the port (70_reset_and_hazards.md R199) -/

theorem State.ibufUnwritten_eq_false {s : State} {a n : Nat}
    (h : ∀ i, a ≤ i → i < a + n → s.ibuf.read i ≠ none) : s.ibufUnwritten a n = false := by
  rw [Bool.eq_false_iff, ne_eq, State.ibufUnwritten_iff]
  rintro ⟨i, hle, hlt, hnone⟩
  exact h i hle hlt hnone

/-- The bytes of written cells are no free values. -/
theorem State.ibufBytes_withPortOf {s : State} {a n : Nat} (h : s.ibufUnwritten a n = false) (p : State) :
    (s.withPortOf p).ibufBytes a n = s.ibufBytes a n := by
  refine List.map_congr_left fun i hi => ?_
  obtain ⟨hle, hlt⟩ := List.mem_range'_1.1 hi
  have hne : s.ibuf.read i ≠ none := fun hnone =>
    Bool.eq_false_iff.1 h ((s.ibufUnwritten_iff a n).2 ⟨i, hle, hlt, hnone⟩)
  obtain ⟨b, hb⟩ := Option.ne_none_iff_exists'.1 hne
  have hb' : (s.withPortOf p).ibuf.read i = some b := hb
  rw [hb, hb']
  rfl

theorem State.afterIbufRead_withPortOf {s : State} {a n : Nat} (h : s.ibufUnwritten a n = false) (p : State) :
    (s.withPortOf p).afterIbufRead a n = (s.afterIbufRead a n).withPortOf p := by
  rw [State.afterIbufRead_of_written h]
  exact State.afterIbufRead_of_written (s := s.withPortOf p) h

theorem diagnose_withPortOf (ovf : Bool) (v : Word) (s p : State) :
    diagnose ovf v (s.withPortOf p) = (diagnose ovf v s).withPortOf p := by
  rw [diagnose_eq, diagnose_eq]
  rfl

theorem execPack_withPortOf {s t : State} (h : exec .pack s = .next t) (p : State) :
    exec .pack (s.withPortOf p) = .next (t.withPortOf p) := by
  obtain ⟨hpacked, hrefused⟩ := packEffect s
  obtain ⟨hpacked', hrefused'⟩ := packEffect (s.withPortOf p)
  by_cases hok : s.bodyLen.toInt < 1024 ∨ s.ctrl = 0
  · obtain rfl := eq_of_exec h (hpacked hok)
    exact hpacked' hok
  · obtain ⟨ho, hc⟩ := not_or.1 hok
    have ho := Int.not_lt.1 ho
    have hc := (BitVec.eq_zero_or_eq_one s.ctrl).resolve_left hc
    obtain rfl := eq_of_exec h (hrefused ho hc)
    exact hrefused' ho hc

theorem runChecksum_withPortOf {s : State} (hw : ∀ a, s.ReadsCell .checksum a → s.ibuf.read a ≠ none) (p : State) :
    runChecksum (s.withPortOf p) = (runChecksum s).withPortOf p := by
  by_cases hf : s.RangeFails
  · have hf' : (s.withPortOf p).RangeFails := hf
    rw [runChecksum_error (State.rangeError_of_fails hf), runChecksum_error (State.rangeError_of_fails hf')]
    rfl
  · have hf' : ¬(s.withPortOf p).RangeFails := hf
    obtain ⟨-, hst, hen, -⟩ := State.rangeIs_of_not_fails hf
    have hwritten : s.ibufUnwritten s.startIdx (s.stopIdx - s.startIdx) = false :=
      State.ibufUnwritten_eq_false fun i hi hlt => hw i ⟨hf, by omega, by omega⟩
    rw [runChecksum_ok (State.rangeError_of_not_fails hf), runChecksum_ok (State.rangeError_of_not_fails hf'),
      State.withPortOf_startIdx, State.withPortOf_stopIdx, State.ibufBytes_withPortOf hwritten,
      State.afterIbufRead_withPortOf hwritten]
    rfl

theorem runTransform_withPortOf (f : List Byte → Nat → Nat → List Byte) {s : State}
    (hw : ∀ a, ¬s.RangeFails ∧ a < s.inLen.toNat → s.ibuf.read a ≠ none) (p : State) :
    runTransform f (s.withPortOf p) = (runTransform f s).withPortOf p := by
  by_cases hf : s.RangeFails
  · exact (runTransform_fails f (s := s.withPortOf p) hf).trans
      (congrArg (·.withPortOf p) (runTransform_fails f hf).symm)
  · have hf' : ¬(s.withPortOf p).RangeFails := hf
    have hwritten : s.ibufUnwritten 0 s.inCount = false :=
      State.ibufUnwritten_eq_false fun i _ hlt => hw i ⟨hf, by rwa [Nat.zero_add] at hlt⟩
    rw [runTransform_ok (State.rangeError_of_not_fails hf), runTransform_ok (State.rangeError_of_not_fails hf'),
      State.withPortOf_inCount, State.ibufBytes_withPortOf hwritten, State.afterIbufRead_withPortOf hwritten]
    rfl

theorem runEncodeWithBody_withPortOf {s : State}
    (hw : ∀ a, s.ReadsCell .encodeWithBody a → s.ibuf.read a ≠ none) (p : State) :
    runEncodeWithBody (s.withPortOf p) = (runEncodeWithBody s).withPortOf p := by
  by_cases hn : s.params.ibufBytes < s.inCount
  · rw [runEncodeWithBody_range hn, runEncodeWithBody_range (s := s.withPortOf p) hn]
    rfl
  have hfit := Nat.not_lt.1 hn
  by_cases h : 1024 ≤ s.inCount ∧ s.refusing = true
  · obtain ⟨ho, hr⟩ := h
    rw [runEncodeWithBody_refused hfit ho hr, runEncodeWithBody_refused (s := s.withPortOf p) hfit ho hr]
    rfl
  · have hok := (not_and_or.1 h).imp Nat.not_le.1 Bool.eq_false_of_not_eq_true
    have hwritten : s.ibufUnwritten 0 s.inCount = false :=
      State.ibufUnwritten_eq_false fun i _ hlt =>
        hw i ⟨hfit, hok.imp_right s.refusing_eq_false_iff.1, by rwa [Nat.zero_add] at hlt⟩
    rw [runEncodeWithBody_framed hfit hok, runEncodeWithBody_framed (s := s.withPortOf p) hfit hok,
      State.withPortOf_inCount, State.ibufBytes_withPortOf hwritten, State.afterIbufRead_withPortOf hwritten,
      diagnose_withPortOf]
    rfl

/-- A command whose cells are written does the same whatever stands at the port, and leaves the port alone. -/
theorem exec_withPortOf {i : Instr} {s t : State} (hw : ∀ a, s.ReadsCell i a → s.ibuf.read a ≠ none)
    (h : exec i s = .next t) (p : State) : exec i (s.withPortOf p) = .next (t.withPortOf p) := by
  cases i with
  | pack => exact execPack_withPortOf h p
  | buildHeader =>
    cases h
    rfl
  | checksum =>
    cases h
    exact congrArg Host.Outcome.next (runChecksum_withPortOf hw p)
  | escape =>
    cases h
    exact congrArg Host.Outcome.next (runTransform_withPortOf _ hw p)
  | unescape =>
    cases h
    exact congrArg Host.Outcome.next (runTransform_withPortOf _ hw p)
  | encodeWithBody =>
    cases h
    exact congrArg Host.Outcome.next (runEncodeWithBody_withPortOf hw p)
  | encodeHeaderOnly =>
    cases h
    rfl

/-- Settles O60: the run comes to a core's turn that differs from the first state at the port alone, where the command
does not look. -/
theorem latencyDoesNotChangeOutcome : Obligations.LatencyDoesNotChangeOutcome := by
  intro s u i hz hb hd hq hw h
  obtain ⟨k, v, hk, hrun, hv⟩ := exists_run_eq_coreTurn hz hb hq
  have hbusy : v.status.busy = true := by rw [hv]; exact hb
  have hdecode : decode v.cmd = .instr i := by rw [hv]; exact hd
  have hturn : coreTurn v = exec i v := by rw [coreTurn, if_pos hbusy, hdecode]
  have hexec : exec i v = .next (u.withPortOf v) := by
    conv_lhs => rw [hv]
    exact exec_withPortOf hw h v
  exact ⟨k, u.withPortOf v, hk, (hrun.trans hturn).trans hexec, rfl, rfl, rfl, rfl, rfl, rfl⟩

end Sys2Proof.Machine
end
